-- ==== Sys2Proof/Word.lean ====
section
/-! DEFINITION. The word types of the machine: bytes, 16-bit words, nibbles and 12-bit address immediates (00_scope R7, 30_encoding R71). -/

namespace Sys2Proof

/-- One memory byte, one general register, one timer (10_state R20, R30, R37). -/
abbrev Byte := BitVec 8

/-- An instruction word, and the width of `I`, `PC` and a stack entry (10_state R24, R25, R27). -/
abbrev Word := BitVec 16

/-- A register number `x` or `y`, a sprite height `n`, or a key number (30_encoding R71, 10_state R34). -/
abbrev Nibble := BitVec 4

/-- The address immediate `nnn` (30_encoding R71). -/
abbrev Addr := BitVec 12

end Sys2Proof
end

