-- ==== Sys2Proof/Syntax.lean ====
section
/-! DEFINITION. The instructions: one constructor per row of spec/opcode_table.json (30_encoding R74), with the fields of the row's format (R72). -/

namespace Sys2Proof

/-- The 34 instructions. Operand order is the encoding's, left to right. Every value of every field is legal
(30_encoding R73), so each term is a well-formed instruction. -/
inductive Instr where
  | cls                             -- 00E0
  | ret                             -- 00EE
  | jp (nnn : Addr)                 -- 1nnn
  | call (nnn : Addr)               -- 2nnn
  | seImm (x : Nibble) (kk : Byte)  -- 3xkk
  | sneImm (x : Nibble) (kk : Byte) -- 4xkk
  | seReg (x y : Nibble)            -- 5xy0
  | ldImm (x : Nibble) (kk : Byte)  -- 6xkk
  | addImm (x : Nibble) (kk : Byte) -- 7xkk
  | ldReg (x y : Nibble)            -- 8xy0
  | orReg (x y : Nibble)            -- 8xy1
  | andReg (x y : Nibble)           -- 8xy2
  | xorReg (x y : Nibble)           -- 8xy3
  | addReg (x y : Nibble)           -- 8xy4
  | subReg (x y : Nibble)           -- 8xy5
  | shrReg (x y : Nibble)           -- 8xy6
  | subnReg (x y : Nibble)          -- 8xy7
  | shlReg (x y : Nibble)           -- 8xyE
  | sneReg (x y : Nibble)           -- 9xy0
  | ldI (nnn : Addr)                -- Annn
  | jpV0 (nnn : Addr)               -- Bnnn
  | rnd (x : Nibble) (kk : Byte)    -- Cxkk
  | drw (x y n : Nibble)            -- Dxyn
  | skp (x : Nibble)                -- Ex9E
  | sknp (x : Nibble)               -- ExA1
  | ldVxDt (x : Nibble)             -- Fx07
  | ldVxK (x : Nibble)              -- Fx0A
  | ldDtVx (x : Nibble)             -- Fx15
  | ldStVx (x : Nibble)             -- Fx18
  | addI (x : Nibble)               -- Fx1E
  | ldF (x : Nibble)                -- Fx29
  | ldB (x : Nibble)                -- Fx33
  | stRegs (x : Nibble)             -- Fx55
  | ldRegs (x : Nibble)             -- Fx65
deriving DecidableEq, Repr

/-- One row of the opcode map: a word `op` is the row's instruction exactly when `op & mask = bits`
(30_encoding R74; the spec's column `match` is named `bits` here). -/
structure Row where
  bits : Word
  mask : Word
deriving DecidableEq, Repr

/-- Why a byte string is no instruction: the six classes of invalid words of 30_encoding R76, and a string shorter
than one instruction (R70), which a fetch never gives. -/
inductive DecodeError where
  /-- `0nnn` other than `00E0` and `00EE`. -/
  | zeroNnn
  /-- `5xyN` with `N ≠ 0`. -/
  | fiveXyN
  /-- `8xyN` with `N` one of `8 9 A B C D F`. -/
  | eightXyN
  /-- `9xyN` with `N ≠ 0`. -/
  | nineXyN
  /-- `Exkk` with `kk` not `9E` or `A1`. -/
  | eXkk
  /-- `Fxkk` with `kk` not one of the nine values of R75. -/
  | fXkk
  /-- Fewer than the two bytes of an instruction. -/
  | tooFewBytes
deriving DecidableEq, Repr

/-- What decoding answers: an instruction, or the named reason why there is none (30_encoding R75, R76). -/
inductive Decoded where
  | ok (i : Instr)
  | invalid (why : DecodeError)
deriving DecidableEq, Repr

end Sys2Proof
end

