-- ==== Sys2Proof/Config.lean ====
section
/-! DEFINITION. What a configuration fixes (the record CFG of 00_scope R8), the sizes that never vary (R7), and the
values the spec leaves open, as constants with no body. -/

namespace Sys2Proof

/-- `STACK_DEPTH` (10_state R27, 92 D9: fixed at 16). -/
abbrev stackDepth : Nat := 16

/-- `MEM_SIZE` (00_scope R7). -/
abbrev memSize : Nat := 4096

/-- `PROG_BASE`, where a ROM is loaded and where `PC` starts (00_scope R7, 10_state R41). -/
abbrev progBase : Nat := 0x200

/-- The longest ROM that fits from `PROG_BASE` to the end of memory (70_reset_and_hazards R241). -/
abbrev maxRom : Nat := 3584

/-- The configuration record `CFG` (00_scope R8, 10_state R39): fixed at construction, written by no instruction.
`STACK_DEPTH` is the constant `stackDepth`. -/
structure Config where
  /-- `8xy6`/`8xyE` shift `V[y]` into `V[x]` when set, `V[x]` in place when not (R128, R130). -/
  shiftLegacy : Bool
  /-- `Fx55`/`Fx65` leave `I + x + 1` in `I` when set (R145, R146). -/
  loadStoreIncrementI : Bool
  /-- `Dxyn` wraps at the screen edges when set, clips when not (R161). -/
  drawWrap : Bool
  /-- Read by no rule: "currently inert" (R39, 92 D26). -/
  jumpWithV0Quirk : Bool
  /-- Execute slots per frame; any natural number (60_exceptions R228). -/
  cyclesPerFrame : Nat
  /-- Where the font stands; a legal one is checked by `Config.wellFormed` (R8, R38). -/
  fontBase : Nat
  /-- The 80 bytes of the 16 glyphs (R38). -/
  fontData : Vector Byte 80
deriving DecidableEq, Repr

/-- OPEN (92 D20): the spec gives the quirk no default, so its value in `State.reset` is unknown. -/
opaque Config.openShiftLegacy : Bool
/-- OPEN (92 D20), as `Config.openShiftLegacy`. -/
opaque Config.openLoadStoreIncrementI : Bool
/-- OPEN (92 D20), as `Config.openShiftLegacy`. -/
opaque Config.openDrawWrap : Bool
/-- OPEN (92 D20, D26), as `Config.openShiftLegacy`; no rule reads it. -/
opaque Config.openJumpWithV0Quirk : Bool
/-- OPEN (92 D2): some address with room for 80 bytes below 0x200. -/
opaque Config.openFontBase : Fin 433
/-- OPEN (92 D3): some 80 bytes. -/
opaque Config.openFontData : Vector Byte 80

/-- `draw8()` (60_exceptions R233, 92 D13): the byte that the `k`-th draw supplies. It has no body, so nothing can be
proved of its value, and a statement about it holds for every sequence of draws. -/
opaque Config.draw8 : Nat → Byte

/-- The configuration of `State.reset`: the spec's default of 700 slots per frame (00_scope R8), and the open
parameters open. -/
def Config.machine : Config where
  shiftLegacy := Config.openShiftLegacy
  loadStoreIncrementI := Config.openLoadStoreIncrementI
  drawWrap := Config.openDrawWrap
  jumpWithV0Quirk := Config.openJumpWithV0Quirk
  cyclesPerFrame := 700
  fontBase := Config.openFontBase.val
  fontData := Config.openFontData

/-- The glyphs that 10_state R38 suggests [from general knowledge, not in source]. -/
def suggestedFont : Vector Byte 80 :=
  #v[0xF0, 0x90, 0x90, 0x90, 0xF0,  0x20, 0x60, 0x20, 0x20, 0x70,
     0xF0, 0x10, 0xF0, 0x80, 0xF0,  0xF0, 0x10, 0xF0, 0x10, 0xF0,
     0x90, 0x90, 0xF0, 0x10, 0x10,  0xF0, 0x80, 0xF0, 0x10, 0xF0,
     0xF0, 0x80, 0xF0, 0x90, 0xF0,  0xF0, 0x10, 0x20, 0x40, 0x40,
     0xF0, 0x90, 0xF0, 0x90, 0xF0,  0xF0, 0x90, 0xF0, 0x10, 0xF0,
     0xF0, 0x90, 0xF0, 0x90, 0x90,  0xE0, 0x90, 0xE0, 0x90, 0xE0,
     0xF0, 0x80, 0x80, 0x80, 0xF0,  0xE0, 0x90, 0x90, 0x90, 0xE0,
     0xF0, 0x80, 0xF0, 0x80, 0xF0,  0xF0, 0x80, 0xF0, 0x80, 0x80]

/-- The configuration that 95_test_vectors assumes: all quirks false, the suggested font at 0x050. Only tests and
witnesses use it; no definition of the machine does. -/
def Config.testVectors : Config where
  shiftLegacy := false
  loadStoreIncrementI := false
  drawWrap := false
  jumpWithV0Quirk := false
  cyclesPerFrame := 700
  fontBase := 0x050
  fontData := suggestedFont

end Sys2Proof
end

