-- ==== Sys2Proof/WellFormed.lean ====
section
/-! DEFINITION. The checks the spec makes before anything runs: on an instruction word (30_encoding R75), on a
configuration (00_scope R8) and on a ROM image (70_reset_and_hazards R241). An `Instr` needs no check of its own: its
fields have exactly the widths of 30_encoding R71 and every value of them is legal (R73). -/

namespace Sys2Proof

/-- 30_encoding R75: which words are instructions, by the major nibble. -/
def wellFormedWord (op : Word) : Bool :=
  let a := op.extractLsb' 12 4
  let n := op.extractLsb' 0 4
  let kk := op.extractLsb' 0 8
  if a = 0x0 then op = 0x00E0 || op = 0x00EE
  else if a = 0x5 || a = 0x9 then n = 0x0
  else if a = 0x8 then n.toNat ≤ 7 || n = 0xE
  else if a = 0xE then kk = 0x9E || kk = 0xA1
  else if a = 0xF then
    [0x07, 0x0A, 0x15, 0x18, 0x1E, 0x29, 0x33, 0x55, 0x65].contains kk
  else true

/-- 00_scope R8: the font lies wholly below 0x200. -/
def Config.wellFormed (cfg : Config) : Bool :=
  cfg.fontBase + 80 ≤ 0x200

/-- 70_reset_and_hazards R241: a ROM of at most 3584 bytes, any length below it included (92 D31). -/
def wellFormedRom (rom : List Byte) : Bool :=
  rom.length ≤ maxRom

end Sys2Proof
end

