-- ==== Sys2Proof/Decode.lean ====
section
/-! DEFINITION. Decoding and encoding (30_encoding): the fields of a word (R71), the decoder (R75), the encoder (R72), the
rows of the opcode map (R74), and the two functions the host asks by the table's numbering of bits. -/

namespace Sys2Proof

/-! ### Fields (30_encoding R71) -/

def fieldA (op : Word) : Nibble := op.extractLsb' 12 4
def fieldX (op : Word) : Nibble := op.extractLsb' 8 4
def fieldY (op : Word) : Nibble := op.extractLsb' 4 4
def fieldN (op : Word) : Nibble := op.extractLsb' 0 4
def fieldKK (op : Word) : Byte := op.extractLsb' 0 8
def fieldNNN (op : Word) : Addr := op.extractLsb' 0 12

/-! ### The decoder (30_encoding R75) -/

/-- Major opcode 8: the minor opcode `n` selects the operation. -/
def decode8 (op : Word) : Decoded :=
  let x := fieldX op
  let y := fieldY op
  let n := fieldN op
  if n = 0x0 then .ok (.ldReg x y)
  else if n = 0x1 then .ok (.orReg x y)
  else if n = 0x2 then .ok (.andReg x y)
  else if n = 0x3 then .ok (.xorReg x y)
  else if n = 0x4 then .ok (.addReg x y)
  else if n = 0x5 then .ok (.subReg x y)
  else if n = 0x6 then .ok (.shrReg x y)
  else if n = 0x7 then .ok (.subnReg x y)
  else if n = 0xE then .ok (.shlReg x y)
  else .invalid .eightXyN

/-- Major opcode F: the low byte selects the operation. -/
def decodeF (op : Word) : Decoded :=
  let x := fieldX op
  let kk := fieldKK op
  if kk = 0x07 then .ok (.ldVxDt x)
  else if kk = 0x0A then .ok (.ldVxK x)
  else if kk = 0x15 then .ok (.ldDtVx x)
  else if kk = 0x18 then .ok (.ldStVx x)
  else if kk = 0x1E then .ok (.addI x)
  else if kk = 0x29 then .ok (.ldF x)
  else if kk = 0x33 then .ok (.ldB x)
  else if kk = 0x55 then .ok (.stRegs x)
  else if kk = 0x65 then .ok (.ldRegs x)
  else .invalid .fXkk

/-- Decode is total: every word is one instruction or invalid, by name (R75, R76). -/
def decode (op : Word) : Decoded :=
  let a := fieldA op
  let x := fieldX op
  let y := fieldY op
  let n := fieldN op
  let kk := fieldKK op
  let nnn := fieldNNN op
  if a = 0x0 then
    if op = 0x00E0 then .ok .cls else if op = 0x00EE then .ok .ret else .invalid .zeroNnn
  else if a = 0x1 then .ok (.jp nnn)
  else if a = 0x2 then .ok (.call nnn)
  else if a = 0x3 then .ok (.seImm x kk)
  else if a = 0x4 then .ok (.sneImm x kk)
  else if a = 0x5 then if n = 0x0 then .ok (.seReg x y) else .invalid .fiveXyN
  else if a = 0x6 then .ok (.ldImm x kk)
  else if a = 0x7 then .ok (.addImm x kk)
  else if a = 0x8 then decode8 op
  else if a = 0x9 then if n = 0x0 then .ok (.sneReg x y) else .invalid .nineXyN
  else if a = 0xA then .ok (.ldI nnn)
  else if a = 0xB then .ok (.jpV0 nnn)
  else if a = 0xC then .ok (.rnd x kk)
  else if a = 0xD then .ok (.drw x y n)
  else if a = 0xE then
    if kk = 0x9E then .ok (.skp x) else if kk = 0xA1 then .ok (.sknp x) else .invalid .eXkk
  else decodeF op

/-- The instruction word of two bytes in memory order: the byte at the lower address is the high one (20_memory R53). -/
def wordOfBytes (hi lo : Byte) : Word := hi ++ lo

/-- Decoding of any byte string: the first two bytes are the instruction (30_encoding R70). -/
def decodeBytes : List Byte → Decoded
  | hi :: lo :: _ => decode (wordOfBytes hi lo)
  | _ => .invalid .tooFewBytes

/-! ### The encoder (30_encoding R72) -/

def encodeNNN (a : Nibble) (nnn : Addr) : Word := a ++ nnn
def encodeXKK (a x : Nibble) (kk : Byte) : Word := a ++ x ++ kk
def encodeXYN (a x y n : Nibble) : Word := a ++ x ++ y ++ n

/-- The word of an instruction, laid out by the row's format. -/
def encode : Instr → Word
  | .cls => 0x00E0
  | .ret => 0x00EE
  | .jp nnn => encodeNNN 0x1 nnn
  | .call nnn => encodeNNN 0x2 nnn
  | .seImm x kk => encodeXKK 0x3 x kk
  | .sneImm x kk => encodeXKK 0x4 x kk
  | .seReg x y => encodeXYN 0x5 x y 0x0
  | .ldImm x kk => encodeXKK 0x6 x kk
  | .addImm x kk => encodeXKK 0x7 x kk
  | .ldReg x y => encodeXYN 0x8 x y 0x0
  | .orReg x y => encodeXYN 0x8 x y 0x1
  | .andReg x y => encodeXYN 0x8 x y 0x2
  | .xorReg x y => encodeXYN 0x8 x y 0x3
  | .addReg x y => encodeXYN 0x8 x y 0x4
  | .subReg x y => encodeXYN 0x8 x y 0x5
  | .shrReg x y => encodeXYN 0x8 x y 0x6
  | .subnReg x y => encodeXYN 0x8 x y 0x7
  | .shlReg x y => encodeXYN 0x8 x y 0xE
  | .sneReg x y => encodeXYN 0x9 x y 0x0
  | .ldI nnn => encodeNNN 0xA nnn
  | .jpV0 nnn => encodeNNN 0xB nnn
  | .rnd x kk => encodeXKK 0xC x kk
  | .drw x y n => encodeXYN 0xD x y n
  | .skp x => encodeXKK 0xE x 0x9E
  | .sknp x => encodeXKK 0xE x 0xA1
  | .ldVxDt x => encodeXKK 0xF x 0x07
  | .ldVxK x => encodeXKK 0xF x 0x0A
  | .ldDtVx x => encodeXKK 0xF x 0x15
  | .ldStVx x => encodeXKK 0xF x 0x18
  | .addI x => encodeXKK 0xF x 0x1E
  | .ldF x => encodeXKK 0xF x 0x29
  | .ldB x => encodeXKK 0xF x 0x33
  | .stRegs x => encodeXKK 0xF x 0x55
  | .ldRegs x => encodeXKK 0xF x 0x65

/-- The high and the low byte of a word, in memory order (20_memory R53). -/
def bytesOfWord (op : Word) : List Byte := [op.extractLsb' 8 8, op.extractLsb' 0 8]

/-- The bytes of an instruction, in memory order. -/
def encodeBytes (i : Instr) : List Byte := bytesOfWord (encode i)

/-! ### The opcode map (30_encoding R74) -/

/-- The row of an instruction: the columns `match` and `mask` of R74. -/
def Instr.row : Instr → Row
  | .cls => ⟨0x00E0, 0xFFFF⟩
  | .ret => ⟨0x00EE, 0xFFFF⟩
  | .jp _ => ⟨0x1000, 0xF000⟩
  | .call _ => ⟨0x2000, 0xF000⟩
  | .seImm _ _ => ⟨0x3000, 0xF000⟩
  | .sneImm _ _ => ⟨0x4000, 0xF000⟩
  | .seReg _ _ => ⟨0x5000, 0xF00F⟩
  | .ldImm _ _ => ⟨0x6000, 0xF000⟩
  | .addImm _ _ => ⟨0x7000, 0xF000⟩
  | .ldReg _ _ => ⟨0x8000, 0xF00F⟩
  | .orReg _ _ => ⟨0x8001, 0xF00F⟩
  | .andReg _ _ => ⟨0x8002, 0xF00F⟩
  | .xorReg _ _ => ⟨0x8003, 0xF00F⟩
  | .addReg _ _ => ⟨0x8004, 0xF00F⟩
  | .subReg _ _ => ⟨0x8005, 0xF00F⟩
  | .shrReg _ _ => ⟨0x8006, 0xF00F⟩
  | .subnReg _ _ => ⟨0x8007, 0xF00F⟩
  | .shlReg _ _ => ⟨0x800E, 0xF00F⟩
  | .sneReg _ _ => ⟨0x9000, 0xF00F⟩
  | .ldI _ => ⟨0xA000, 0xF000⟩
  | .jpV0 _ => ⟨0xB000, 0xF000⟩
  | .rnd _ _ => ⟨0xC000, 0xF000⟩
  | .drw _ _ _ => ⟨0xD000, 0xF000⟩
  | .skp _ => ⟨0xE09E, 0xF0FF⟩
  | .sknp _ => ⟨0xE0A1, 0xF0FF⟩
  | .ldVxDt _ => ⟨0xF007, 0xF0FF⟩
  | .ldVxK _ => ⟨0xF00A, 0xF0FF⟩
  | .ldDtVx _ => ⟨0xF015, 0xF0FF⟩
  | .ldStVx _ => ⟨0xF018, 0xF0FF⟩
  | .addI _ => ⟨0xF01E, 0xF0FF⟩
  | .ldF _ => ⟨0xF029, 0xF0FF⟩
  | .ldB _ => ⟨0xF033, 0xF0FF⟩
  | .stRegs _ => ⟨0xF055, 0xF0FF⟩
  | .ldRegs _ => ⟨0xF065, 0xF0FF⟩

/-- The 34 rows of R74, in its order. -/
def opcodeTable : List Row :=
  [⟨0x00E0, 0xFFFF⟩, ⟨0x00EE, 0xFFFF⟩, ⟨0x1000, 0xF000⟩, ⟨0x2000, 0xF000⟩, ⟨0x3000, 0xF000⟩, ⟨0x4000, 0xF000⟩,
   ⟨0x5000, 0xF00F⟩, ⟨0x6000, 0xF000⟩, ⟨0x7000, 0xF000⟩] ++
  [⟨0x8000, 0xF00F⟩, ⟨0x8001, 0xF00F⟩, ⟨0x8002, 0xF00F⟩, ⟨0x8003, 0xF00F⟩, ⟨0x8004, 0xF00F⟩, ⟨0x8005, 0xF00F⟩,
   ⟨0x8006, 0xF00F⟩, ⟨0x8007, 0xF00F⟩, ⟨0x800E, 0xF00F⟩] ++
  [⟨0x9000, 0xF00F⟩, ⟨0xA000, 0xF000⟩, ⟨0xB000, 0xF000⟩, ⟨0xC000, 0xF000⟩, ⟨0xD000, 0xF000⟩, ⟨0xE09E, 0xF0FF⟩,
   ⟨0xE0A1, 0xF0FF⟩] ++
  [⟨0xF007, 0xF0FF⟩, ⟨0xF00A, 0xF0FF⟩, ⟨0xF015, 0xF0FF⟩, ⟨0xF018, 0xF0FF⟩, ⟨0xF01E, 0xF0FF⟩, ⟨0xF029, 0xF0FF⟩,
   ⟨0xF033, 0xF0FF⟩, ⟨0xF055, 0xF0FF⟩, ⟨0xF065, 0xF0FF⟩]

/-! ### The table's numbering of bits -/

/-- The bytes in memory of an instruction whose bits, numbered as the opcode table numbers them, are `w`: one 16-bit word,
bit 0 its least significant bit, every bit from `nbits` up 0. -/
def tableBytes (nbits w : Nat) : List Byte := bytesOfWord (BitVec.ofNat 16 (w % 2 ^ nbits))

/-- What the decoder reads from those bytes. -/
def decodeTableWord (nbits w : Nat) : Option Instr :=
  match decodeBytes (tableBytes nbits w) with
  | .ok i => some i
  | .invalid _ => none

end Sys2Proof
end

