-- ==== Sys2Proof/Machine/State.lean ====
section
/-! DEFINITION. The state of the machine (10_state; the whole of it is rule R41), the reasons a step can stop, and the
state right after reset. Plain data only. -/

namespace Sys2Proof.Machine

/-- The causes of a fault (10_state R33; 60_exceptions R211 to R213). -/
inductive FaultCause where
  | invalidOpcode
  | stackOverflow
  | stackUnderflow
deriving DecidableEq, Repr

/-- `STATUS` (10_state R33). `awaitingKey x` names the register that will receive the key. -/
inductive Status where
  | running
  | awaitingKey (x : Nibble)
  | faulted (c : FaultCause)
deriving DecidableEq, Repr

/-- Why a step stops. -/
inductive Fault where
  /-- Raised by `step` alone, on a state whose `STATUS` is `FAULTED(c)`: "the core has no enabled step of any kind"
  (60_exceptions R205). Safe: the hardware does not go on either. -/
  | halted (c : FaultCause)
deriving DecidableEq, Repr

/-- Why there is no meaning. -/
inductive Refusal where
  /-- For an arm of `exec` without a meaning. No arm of this model answers it. Safe: it stops where hardware goes on. -/
  | notModelled (mnemonic : String)
  /-- Answered by `State.resetWith` alone, for a ROM longer than 3584 bytes: "rejected before any execution", no state is
  produced (70_reset_and_hazards R240, R241; 60_exceptions R214). Safe: the hardware produces no state either. -/
  | romTooLarge
deriving DecidableEq, Repr

/-- `FB[y][x]`: 32 rows of 64 pixels (10_state R32). -/
abbrev Framebuffer := Vector (Vector Bool 64) 32

/-- One pixel position: row, column. -/
abbrev Pixel := Fin 32 × Fin 64

/-- What one timer tick delivers at the ports: a copy of the framebuffer and the sound level
(60_exceptions R230, R232). -/
structure Report where
  fb : Framebuffer
  soundActive : Bool
deriving DecidableEq, Repr

/-- Everything the spec gives the machine (10_state R41), the configuration it runs under (00_scope R8), and two fields of
the model's own: `drawCtr` and `report`. -/
structure State where
  /-- `V[0]` to `V[15]` (R20). -/
  v : Vector Byte 16
  /-- `I` (R24). -/
  i : Word
  /-- `PC` (R25). -/
  pc : Word
  /-- `STACK[0]` to `STACK[15]` (R27). -/
  stack : Vector Word stackDepth
  /-- `SP`, the number of entries in use, 0 to 16 (R28). -/
  sp : Fin (stackDepth + 1)
  /-- `DT` (R30). -/
  dt : Byte
  /-- `ST` (R31). -/
  st : Byte
  /-- `FB` (R32). -/
  fb : Framebuffer
  /-- `KEYS[0]` to `KEYS[15]` (R35). -/
  keys : Vector Bool 16
  /-- `MEM` (R37): the bytes that differ from their reset contents, addresses rising (`Memory.wf`). -/
  mem : List Host.Cell
  /-- `STATUS` (R33). -/
  status : Status
  /-- `KEY_LATCH` (R34). -/
  keyLatch : Option Nibble
  /-- `CYCLE_CTR` (R36). -/
  cycleCtr : Nat
  /-- The model's own: which draw the next `Cxkk` takes. DESIGN CHOICE (log 8), safe: only `Config.draw8` reads it, and
  no event takes it back, a reset included. -/
  drawCtr : Nat
  /-- The model's own: what the last timer tick since the last reset delivered, nothing before it. DESIGN CHOICE (log 10),
  unsafe only for what the sinks hold between a reset in a run and the next tick. -/
  report : Option Report
  /-- `CFG` (00_scope R8): no event but a reset writes it (log 2). -/
  cfg : Config
deriving DecidableEq, Repr

/-- The table of 10_state R41 with no ROM byte loaded. The font is what unlisted memory reads as (`Memory.resetByte`). -/
def State.initial (cfg : Config) : State where
  v := Vector.replicate 16 0
  i := 0
  pc := BitVec.ofNat 16 progBase
  stack := Vector.replicate stackDepth 0
  sp := 0
  dt := 0
  st := 0
  fb := Vector.replicate 32 (Vector.replicate 64 false)
  keys := Vector.replicate 16 false
  mem := []
  status := .running
  keyLatch := none
  cycleCtr := 0
  drawCtr := 0
  report := none
  cfg := cfg

/-- The machine right after reset with an empty ROM (70_reset_and_hazards R240, R241: length 0 is accepted). -/
def State.reset : State := State.initial Config.machine

end Sys2Proof.Machine
end

