-- ==== Sys2Proof/Machine/Memory.lean ====
section
/-! DEFINITION. Memory as a list of (address, byte) pairs in one canonical form, over a function that says what an
unlisted address reads as (20_memory; log 11). -/

namespace Sys2Proof.Machine

/-- What an address that nothing has written reads as: its reset contents, the font byte at `FONT_BASE .. FONT_BASE+79`
(10_state R38) and 0x00 everywhere else (R41). The font lies below 0x200 (00_scope R8). -/
def Memory.resetByte (cfg : Config) (a : Nat) : Byte :=
  if progBase ≤ a then 0
  else if h : cfg.fontBase ≤ a ∧ a < cfg.fontBase + 80 then cfg.fontData[a - cfg.fontBase]
  else 0

/-- One byte: the listed value, or what the address reads as when unlisted. -/
def Memory.read (d : Nat → Byte) : List Host.Cell → Nat → Byte
  | [], a => d a
  | (b, w) :: m, a => if a = b then w else Memory.read d m a

/-- Write one byte and keep the canonical form: a value equal to what the unlisted address reads as is not listed. -/
def Memory.write (d : Nat → Byte) : List Host.Cell → Nat → Byte → List Host.Cell
  | [], a, v => if v = d a then [] else [(a, v)]
  | (b, w) :: m, a, v =>
    if a < b then (if v = d a then (b, w) :: m else (a, v) :: (b, w) :: m)
    else if a = b then (if v = d a then m else (a, v) :: m)
    else (b, w) :: Memory.write d m a v

/-- Write bytes at ascending addresses, each reduced mod 4096 (20_memory R51, R52, R57). -/
def Memory.writeBlock (d : Nat → Byte) (m : List Host.Cell) (a : Nat) : List Byte → List Host.Cell
  | [] => m
  | v :: vs => Memory.writeBlock d (Memory.write d m (a % memSize) v) (a + 1) vs

/-- The canonical form from a lower bound `lo` on: addresses strictly rising and below 4096, no entry equal to what the
address reads as when unlisted. -/
def Memory.wfFrom (d : Nat → Byte) (lo : Nat) : List Host.Cell → Bool
  | [] => true
  | (a, v) :: m => lo ≤ a && a < memSize && v ≠ d a && Memory.wfFrom d (a + 1) m

/-- The canonical form. -/
def Memory.wf (d : Nat → Byte) (m : List Host.Cell) : Bool := Memory.wfFrom d 0 m

end Sys2Proof.Machine
end

