-- ==== Sys2Proof/Machine/Ops.lean ====
section
/-! DEFINITION. The named operations on the machine: registers, program counter, memory, call stack, timers, keypad,
status, raising a fault, the timer tick and reset. -/

namespace Sys2Proof.Machine

/-! ### Registers (10_state R20, R24, R25) -/

/-- Reduction mod 4096: "all address arithmetic wraps modulo 4096" (10_state R24, R25). -/
def wrap12 (w : Word) : Word := w % 4096#16

/-- Read `V[x]`. -/
def State.getV (s : State) (x : Nibble) : Byte := s.v[x.toNat]'x.isLt

/-- Write `V[x]`. -/
def State.setV (s : State) (x : Nibble) (b : Byte) : State := { s with v := s.v.set x.toNat b x.isLt }

/-- Replace the whole register file. -/
def State.setRegs (s : State) (v : Vector Byte 16) : State := { s with v := v }

/-- Write `I`: "masked to 12 bits on write" (R24). -/
def State.setI (s : State) (w : Word) : State := { s with i := wrap12 w }

/-- Write `PC`: every value written is reduced mod 4096 (R25). -/
def State.setPc (s : State) (w : Word) : State := { s with pc := wrap12 w }

/-- `npc`, the address of the next instruction (60_exceptions R202). -/
def State.npc (s : State) : Word := wrap12 (s.pc + 2#16)

/-- `PC <- npc`. -/
def State.advance (s : State) : State := s.setPc s.npc

/-- A conditional skip (10_state R26): `PC <- (npc + 2) mod 4096` when `c` holds, one 2-byte slot further whatever it holds
(40_flow R104), else `PC <- npc`. -/
def State.skipIf (s : State) (c : Bool) : State := s.setPc (if c then s.npc + 2#16 else s.npc)

/-! ### Memory (20_memory R50, R51, R54) -/

/-- `MemRead(addr, 1)`: the byte at `addr mod 4096` (R50). -/
def State.memRead (s : State) (a : Nat) : Byte := Memory.read (Memory.resetByte s.cfg) s.mem (a % memSize)

/-- Bytes stored at ascending addresses from `a`, each reduced mod 4096 (R51, R52, R57). -/
def State.storeBlock (s : State) (a : Nat) (bs : List Byte) : State :=
  { s with mem := Memory.writeBlock (Memory.resetByte s.cfg) s.mem a bs }

/-- The word fetched at `PC`: the byte at `PC` is the high one (R53, R54). -/
def State.fetchWord (s : State) : Word := wordOfBytes (s.memRead s.pc.toNat) (s.memRead (s.pc.toNat + 1))

/-! ### Call stack (10_state R27, R28) -/

/-- Push, unless the stack is full: `STACK[SP] <- w; SP <- SP + 1`. -/
def State.push (s : State) (w : Word) : Option State :=
  if h : s.sp.val < stackDepth then
    some { s with stack := s.stack.set s.sp.val w h, sp := ⟨s.sp.val + 1, Nat.succ_lt_succ h⟩ }
  else none

/-- Pop, unless the stack is empty: the top entry and the state with `SP <- SP - 1`; the entry stays, dead. -/
def State.pop (s : State) : Option (Word × State) :=
  if h : 0 < s.sp.val then
    some (s.stack[s.sp.val - 1]'(Nat.lt_of_lt_of_le (Nat.sub_lt h Nat.one_pos) (Nat.le_of_lt_succ s.sp.isLt)),
      { s with sp := ⟨s.sp.val - 1, Nat.lt_of_le_of_lt (Nat.sub_le _ _) s.sp.isLt⟩ })
  else none

/-! ### Timers, framebuffer, draw -/

/-- Write `DT` (10_state R30). -/
def State.setDt (s : State) (b : Byte) : State := { s with dt := b }

/-- Write `ST` (10_state R31). -/
def State.setSt (s : State) (b : Byte) : State := { s with st := b }

/-- Replace the framebuffer (10_state R32). -/
def State.setFb (s : State) (fb : Framebuffer) : State := { s with fb := fb }

/-- The byte `draw8()` that this state's next `Cxkk` takes (60_exceptions R233): a free value. -/
def State.drawByte (s : State) : Byte := Config.draw8 s.drawCtr

/-- The draw is consumed: the next one is another (R233: "no law connecting successive draws"). -/
def State.consumeDraw (s : State) : State := { s with drawCtr := s.drawCtr + 1 }

/-! ### Status: faults and the key wait -/

/-- `raise c` (60_exceptions R210): exactly `STATUS <- FAULTED(c)`. There is no handler, no saved register, no vector, and
hence no return (R217). -/
def State.takeFault (s : State) (c : FaultCause) : State := { s with status := .faulted c }

/-- The slot that starts a key wait (44_keypad_timers R174): `PC` is not advanced. -/
def State.startWait (s : State) (x : Nibble) : State := { s with status := .awaitingKey x, keyLatch := none }

/-- An execute slot while `STATUS = AWAITING_KEY(x)` (60_exceptions R204). -/
def State.waitSlot (s : State) (x : Nibble) : State :=
  match s.keyLatch with
  | some k => { (s.setV x (k.zeroExtend 8)).advance with status := .running, keyLatch := none }
  | none => s

/-- The result a slot reports to the scheduler, a function of the new `STATUS` (60_exceptions R206). -/
inductive SlotResult where
  | executed
  | blocked
  | faulted (c : FaultCause)
deriving DecidableEq, Repr

def slotResult : Status → SlotResult
  | .running => .executed
  | .awaitingKey _ => .blocked
  | .faulted c => .faulted c

/-! ### Scheduler bookkeeping and the timer tick -/

/-- `CYCLE_CTR <- CYCLE_CTR + 1` if the slot did not fault (60_exceptions R224). -/
def State.countSlot (s : State) : State :=
  match slotResult s.status with
  | .faulted _ => s
  | _ => { s with cycleCtr := s.cycleCtr + 1 }

/-- A timer counts down by 1 and stops at 0 (60_exceptions R220). -/
def countDown (t : Byte) : Byte := if t = 0 then 0 else t - 1#8

/-- The timer tick (60_exceptions R220): both timers count down, then the framebuffer is published and the sound level of
the new `ST` is reported (R230, R232). -/
def State.timerTick (s : State) : State :=
  { s with dt := countDown s.dt, st := countDown s.st,
           report := some { fb := s.fb, soundActive := countDown s.st ≠ 0 } }

/-- `CYCLE_CTR <- 0` (60_exceptions R224). -/
def State.resetCycleCtr (s : State) : State := { s with cycleCtr := 0 }

/-! ### Host operations (60_exceptions R231; 70_reset_and_hazards R240) -/

/-- `KEYS[k]`. -/
def State.key (s : State) (k : Nibble) : Bool := s.keys[k.toNat]'k.isLt

/-- The latch after a press of `k` that is an edge: filled only while waiting and only when empty (R231, 92 D11, D29). -/
def State.latchAfterPress (s : State) (k : Nibble) : Option Nibble :=
  match s.status, s.keyLatch with
  | .awaitingKey _, none => some k
  | _, l => l

/-- `KeyDown(k)` (R231): on a key already down, no change and no edge. -/
def State.keyDown (s : State) (k : Nibble) : State :=
  if s.key k then s
  else { s with keys := s.keys.set k.toNat true k.isLt, keyLatch := s.latchAfterPress k }

/-- `KeyUp(k)` (R231). -/
def State.keyUp (s : State) (k : Nibble) : State := { s with keys := s.keys.set k.toNat false k.isLt }

/-- The state a reset gives before the ROM is loaded (R240): every piece of state at its value of 10_state R41. The count of
draws goes on, since no law connects the draws after a reset with those before (60_exceptions R233; log 8). The report is
empty again until the next tick: the spec does not say what the outputs hold after a reset in a run. DESIGN CHOICE (log 10),
unsafe for a claim about what the sinks hold between such a reset and the next tick. -/
def State.resetInto (s : State) (cfg : Config) : State := { State.initial cfg with drawCtr := s.drawCtr }

/-- `Reset(ROM)` under a configuration (R240, R241, R243): refused when the ROM does not fit; otherwise every piece of
state takes its value of 10_state R41 and the ROM stands at 0x200, "loaded verbatim". -/
def State.resetWith (s : State) (cfg : Config) (rom : List Byte) : Host.Outcome State Fault Refusal :=
  if wellFormedRom rom then .next ((s.resetInto cfg).storeBlock progBase rom) else .refused .romTooLarge

end Sys2Proof.Machine
end

