-- ==== Sys2Proof/Machine/Operands.lean ====
section
/-! DEFINITION. The operand forms: index plus offset (42_index_memory), key number and glyph selector (low nibble), the
source of a shift (41_alu R128), absolute and V0-relative targets (40_flow), and the pixel positions of a sprite
(43_display R161). -/

namespace Sys2Proof.Machine

/-- The effective address of element `k`: `(I + k) mod 4096` (42_index_memory, introduction). -/
def State.ea (s : State) (k : Nat) : Nat := (s.i.toNat + k) % memSize

/-- `V[x] & 0x0F`: a key number (44_keypad_timers R170) or a glyph's digit (42_index_memory R142). -/
def State.digit (s : State) (x : Nibble) : Nibble := (s.getV x).truncate 4

/-- An absolute target or address, `zext_16(nnn)` (30_encoding R73). -/
def absolute (nnn : Addr) : Word := nnn.zeroExtend 16

/-- `nnn + zext_16(V[0])`, to be reduced when written to `PC` (40_flow R103). The inert quirk plays no part. -/
def State.targetV0 (s : State) (nnn : Addr) : Word := nnn.zeroExtend 16 + (s.getV 0).zeroExtend 16

/-- The operand of a shift: `V[y]` under `shift_legacy`, else `V[x]` (41_alu R128, R130). -/
def State.shiftSource (s : State) (x y : Nibble) : Byte := if s.cfg.shiftLegacy then s.getV y else s.getV x

/-- The address of the glyph for `V[x]`: `FONT_BASE + 5 * digit` (42_index_memory R142). -/
def State.glyphAddress (s : State) (x : Nibble) : Word := BitVec.ofNat 16 (s.cfg.fontBase + 5 * (s.digit x).toNat)

/-- `I` after a block transfer of `V[0]..V[x]`: `I + x + 1` under `load_store_increment_i`, else `I` as it was
(42_index_memory R145, R146). -/
def State.indexAfterBlock (s : State) (x : Nibble) : Word :=
  if s.cfg.loadStoreIncrementI then wrap12 (s.i + x.zeroExtend 16 + 1) else s.i

/-- `I` after a block transfer is written. -/
def State.bumpIndex (s : State) (x : Nibble) : State := { s with i := s.indexAfterBlock x }

/-- `V[0]..V[x]`, the bytes that `Fx55` stores, in order. -/
def State.regsUpTo (s : State) (x : Nibble) : List Byte :=
  (List.range (x.toNat + 1)).map fun k => s.getV (BitVec.ofNat 4 k)

/-- The register file after `Fx65`: `V[k]` from `(I + k) mod 4096` for `k ≤ x`, the others as they were. -/
def State.regsLoaded (s : State) (x : Nibble) : Vector Byte 16 :=
  Vector.ofFn fun k : Fin 16 => if k.val ≤ x.toNat then s.memRead (s.ea k.val) else s.v[k]

/-- The BCD digits of a byte: hundreds, tens, ones, each a whole byte (42_index_memory R144). -/
def bcdDigits (v : Byte) : List Byte := [v / 100, (v / 10) % 10, v % 10]

/-! ### Sprites (43_display R161) -/

/-- Where a pixel meant for column `px`, row `py` lands: reduced when wrapping, dropped outside the screen when clipping. -/
def placePixel (wrap : Bool) (py px : Nat) : Option Pixel :=
  if wrap then some (Fin.ofNat 32 py, Fin.ofNat 64 px)
  else if h : py < 32 ∧ px < 64 then some (⟨py, h.1⟩, ⟨px, h.2⟩)
  else none

/-- Bit `7 - c` of a sprite byte: the most significant bit is the leftmost pixel. -/
def spriteBit (b : Byte) (c : Nat) : Bool := b.getLsbD (7 - c)

/-- The pixels that one sprite row flips, left to right. -/
def rowPixels (wrap : Bool) (py px : Nat) (b : Byte) : List Pixel :=
  (List.range 8).filterMap fun c => if spriteBit b c then placePixel wrap py (px + c) else none

/-- The origin of `Dxyn`: column `V[x] mod 64`, row `V[y] mod 32`. -/
def State.originColumn (s : State) (x : Nibble) : Nat := (s.getV x).toNat % 64
def State.originRow (s : State) (y : Nibble) : Nat := (s.getV y).toNat % 32

/-- All pixels that `Dxyn` flips, row by row. -/
def State.spritePixels (s : State) (x y n : Nibble) : List Pixel :=
  (List.range n.toNat).flatMap fun r =>
    rowPixels s.cfg.drawWrap (s.originRow y + r) (s.originColumn x) (s.memRead (s.ea r))

/-- Read one pixel. -/
def Framebuffer.pixel (fb : Framebuffer) (p : Pixel) : Bool := fb[p.1][p.2]

/-- Flip one pixel. -/
def Framebuffer.flip (fb : Framebuffer) (p : Pixel) : Framebuffer := fb.set p.1 (fb[p.1].set p.2 (!fb[p.1][p.2]))

/-- XOR a list of pixels onto the framebuffer, and say whether one went from set to unset. -/
def Framebuffer.xorPixels (fb : Framebuffer) : List Pixel → Framebuffer × Bool
  | [] => (fb, false)
  | p :: ps => ((Framebuffer.xorPixels (fb.flip p) ps).1, fb.pixel p || (Framebuffer.xorPixels (fb.flip p) ps).2)

/-- The framebuffer after `Dxyn` and its collision: a function of the old state. -/
def State.drawSprite (s : State) (x y n : Nibble) : Framebuffer × Bool :=
  Framebuffer.xorPixels s.fb (s.spritePixels x y n)

end Sys2Proof.Machine
end

