-- ==== Sys2Proof/Machine/Flags.lean ====
section
/-! DEFINITION. The flag computations and the one way a flag is written (10_state R21, R22; 41_alu R132). -/

namespace Sys2Proof.Machine

/-- A flag is the byte 0x00 or 0x01 (41_alu R132). -/
def flagByte (c : Bool) : Byte := if c then 1 else 0

/-- Carry of an addition: the true sum exceeds 255 (41_alu R126). -/
def carryFlag (a b : Byte) : Byte := flagByte (255 < a.toNat + b.toNat)

/-- NOT borrow of `a - b`: 1 exactly when `a ≥ b` (41_alu R127, R129). -/
def notBorrowFlag (a b : Byte) : Byte := flagByte (b.toNat ≤ a.toNat)

/-- The bit a right shift drops (41_alu R128). -/
def lowBitFlag (s : Byte) : Byte := flagByte (s.getLsbD 0)

/-- The bit a left shift drops (41_alu R130). -/
def highBitFlag (s : Byte) : Byte := flagByte (s.getLsbD 7)

/-- The result goes to `V[x]`, then the flag to `V[15]`: the flag is written last and overwrites a result that targets
`VF` (10_state R22). Result and flag are computed by the caller from the old registers. -/
def State.setFlagged (s : State) (x : Nibble) (result flag : Byte) : State := (s.setV x result).setV 15 flag

end Sys2Proof.Machine
end

