-- ==== Sys2Proof/Machine/Display.lean ====
section
/-! DEFINITION. Display: clear and sprite draw (43_display). -/

namespace Sys2Proof.Machine

/-- A framebuffer with every pixel unset. -/
def Framebuffer.clear : Framebuffer := Vector.replicate 32 (Vector.replicate 64 false)

/-- `00E0` CLS (R160): `VF` is not written. -/
def execCls (s : State) : Host.Outcome State Fault Refusal := .next (s.setFb Framebuffer.clear).advance

/-- `Dxyn` DRW Vx, Vy, n (R161): coordinates and sprite are read from the old state, `VF` is written last. -/
def execDrw (x y n : Nibble) (s : State) : Host.Outcome State Fault Refusal :=
  .next ((s.setFb (s.drawSprite x y n).1).setV 15 (flagByte (s.drawSprite x y n).2)).advance

end Sys2Proof.Machine
end

