-- ==== Sys2Proof/Machine/Flow.lean ====
section
/-! DEFINITION. Control transfer (40_flow): RET, JP, CALL, JP V0 and the register skips. -/

namespace Sys2Proof.Machine

/-- `00EE` RET (R100). -/
def execRet (s : State) : Host.Outcome State Fault Refusal :=
  match s.pop with
  | some (top, t) => .next (t.setPc top)
  | none => .next (s.takeFault .stackUnderflow)

/-- `1nnn` JP (R101). -/
def execJp (nnn : Addr) (s : State) : Host.Outcome State Fault Refusal := .next (s.setPc (absolute nnn))

/-- `2nnn` CALL (R102): the pushed value is `npc`. -/
def execCall (nnn : Addr) (s : State) : Host.Outcome State Fault Refusal :=
  match s.push s.npc with
  | some t => .next (t.setPc (absolute nnn))
  | none => .next (s.takeFault .stackOverflow)

/-- `Bnnn` JP V0 (R103). -/
def execJpV0 (nnn : Addr) (s : State) : Host.Outcome State Fault Refusal := .next (s.setPc (s.targetV0 nnn))

/-- `3xkk` SE Vx, kk (R104). -/
def execSeImm (x : Nibble) (kk : Byte) (s : State) : Host.Outcome State Fault Refusal :=
  .next (s.skipIf (s.getV x = kk))

/-- `4xkk` SNE Vx, kk (R105). -/
def execSneImm (x : Nibble) (kk : Byte) (s : State) : Host.Outcome State Fault Refusal :=
  .next (s.skipIf (s.getV x ≠ kk))

/-- `5xy0` SE Vx, Vy (R106). -/
def execSeReg (x y : Nibble) (s : State) : Host.Outcome State Fault Refusal :=
  .next (s.skipIf (s.getV x = s.getV y))

/-- `9xy0` SNE Vx, Vy (R107). -/
def execSneReg (x y : Nibble) (s : State) : Host.Outcome State Fault Refusal :=
  .next (s.skipIf (s.getV x ≠ s.getV y))

end Sys2Proof.Machine
end

