-- ==== Sys2Proof/Machine/Index.lean ====
section
/-! DEFINITION. The index register and memory transfers (42_index_memory). -/

namespace Sys2Proof.Machine

/-- `Annn` LD I, nnn (R140). -/
def execLdI (nnn : Addr) (s : State) : Host.Outcome State Fault Refusal :=
  .next (s.setI (absolute nnn)).advance

/-- `Fx1E` ADD I, Vx (R141): mod 4096, no flag. -/
def execAddI (x : Nibble) (s : State) : Host.Outcome State Fault Refusal :=
  .next (s.setI (s.i + (s.getV x).zeroExtend 16)).advance

/-- `Fx29` LD F, Vx (R142). -/
def execLdF (x : Nibble) (s : State) : Host.Outcome State Fault Refusal :=
  .next (s.setI (s.glyphAddress x)).advance

/-- `Fx33` LD B, Vx (R144). -/
def execLdB (x : Nibble) (s : State) : Host.Outcome State Fault Refusal :=
  .next (s.storeBlock s.i.toNat (bcdDigits (s.getV x))).advance

/-- `Fx55` LD [I], Vx (R145). -/
def execStRegs (x : Nibble) (s : State) : Host.Outcome State Fault Refusal :=
  .next ((s.storeBlock s.i.toNat (s.regsUpTo x)).bumpIndex x).advance

/-- `Fx65` LD Vx, [I] (R146). -/
def execLdRegs (x : Nibble) (s : State) : Host.Outcome State Fault Refusal :=
  .next ((s.bumpIndex x).setRegs (s.regsLoaded x)).advance

end Sys2Proof.Machine
end

