-- ==== Sys2Proof/Machine/Keypad.lean ====
section
/-! DEFINITION. Keypad and timer instructions (44_keypad_timers). -/

namespace Sys2Proof.Machine

/-- `Ex9E` SKP Vx (R170). -/
def execSkp (x : Nibble) (s : State) : Host.Outcome State Fault Refusal :=
  .next (s.skipIf (s.key (s.digit x)))

/-- `ExA1` SKNP Vx (R171). -/
def execSknp (x : Nibble) (s : State) : Host.Outcome State Fault Refusal :=
  .next (s.skipIf (!s.key (s.digit x)))

/-- `Fx07` LD Vx, DT (R172). -/
def execLdVxDt (x : Nibble) (s : State) : Host.Outcome State Fault Refusal := .next (s.setV x s.dt).advance

/-- `Fx0A` LD Vx, K (R174): the slot that starts the wait. The wait ends in a later slot, by `State.waitSlot`. -/
def execLdVxK (x : Nibble) (s : State) : Host.Outcome State Fault Refusal := .next (s.startWait x)

/-- `Fx15` LD DT, Vx (R175). -/
def execLdDtVx (x : Nibble) (s : State) : Host.Outcome State Fault Refusal := .next (s.setDt (s.getV x)).advance

/-- `Fx18` LD ST, Vx (R176). -/
def execLdStVx (x : Nibble) (s : State) : Host.Outcome State Fault Refusal := .next (s.setSt (s.getV x)).advance

end Sys2Proof.Machine
end

