-- ==== Sys2Proof/Machine/Slot.lean ====
section
/-! DEFINITION. The execute slot (60_exceptions R201), the frame scheduler (R224), and the placing of
one instruction word where the next step fetches it. -/

namespace Sys2Proof.Machine

/-- The execute slot, by `STATUS` (60_exceptions R201): a wait slot makes no fetch (R204); an invalid word raises
`InvalidOpcode` (R211); no slot is enabled in `FAULTED` (R205). -/
def execSlot (s : State) : Host.Outcome State Fault Refusal :=
  match s.status with
  | .running =>
    match decode s.fetchWord with
    | .ok i => exec i s
    | .invalid _ => .next (s.takeFault .invalidOpcode)
  | .awaitingKey x => .next (s.waitSlot x)
  | .faulted c => .fault (.halted c)

/-- The scheduler counts a slot that did not fault (60_exceptions R224). -/
def countOutcome : Host.Outcome State Fault Refusal → Host.Outcome State Fault Refusal
  | .next t => .next t.countSlot
  | .fault r => .fault r
  | .refused r => .refused r

/-- `SchedStep` (60_exceptions R224): nothing is enabled in `FAULTED` (R205, R226); while slots are left in the frame, an
execute slot, counted unless it faulted; then a timer tick. -/
def schedStep (s : State) : Host.Outcome State Fault Refusal :=
  match s.status with
  | .faulted c => .fault (.halted c)
  | _ =>
    if s.cycleCtr < s.cfg.cyclesPerFrame then countOutcome (execSlot s)
    else .next s.timerTick.resetCycleCtr

/-- The state in which the very next step runs the instruction whose two bytes are `bs`: the bytes stand at `PC`, the core
is `RUNNING`, and a slot is left in the frame (log 17). From `State.reset` only the two bytes change. -/
def State.placeBytes (s : State) (bs : List Byte) : State :=
  { s.storeBlock s.pc.toNat bs with
    status := .running
    keyLatch := none
    cycleCtr := if s.cycleCtr < s.cfg.cyclesPerFrame then s.cycleCtr else 0 }

end Sys2Proof.Machine
end

