-- ==== Sys2Proof/Machine/Step.lean ====
section
/-! DEFINITION. One step of the machine: one event of the frame scheduler (60_exceptions R224). -/

namespace Sys2Proof.Machine

/-- One step is one event of the frame scheduler, `SchedStep` (60_exceptions R224; log 1). -/
def step (s : State) : Host.Outcome State Fault Refusal := schedStep s

/-- `s` with one instruction, its bits numbered as the opcode table numbers them, where the next step fetches it. -/
def State.withFetchWord (s : State) (nbits w : Nat) : State := s.placeBytes (tableBytes nbits w)

end Sys2Proof.Machine
end

