-- ==== Sys2Proof/Machine/Events.lean ====
section
/-! DEFINITION. Every event that changes the state (60_exceptions R200): a step of the frame scheduler, the key operations
of the Input Source, and reset. Host operations may fall between any two events (R231, 92 D12; log 9). -/

namespace Sys2Proof.Machine

/-- The events of 60_exceptions R200. `schedStep` is the only driver of execute slots and timer ticks (R224). -/
inductive Event where
  | schedStep
  | keyDown (k : Nibble)
  | keyUp (k : Nibble)
  | reset (cfg : Config) (rom : List Byte)
deriving DecidableEq, Repr

/-- What an event does. -/
def applyEvent (e : Event) (s : State) : Host.Outcome State Fault Refusal :=
  match e with
  | .schedStep => step s
  | .keyDown k => .next (s.keyDown k)
  | .keyUp k => .next (s.keyUp k)
  | .reset cfg rom => s.resetWith cfg rom

end Sys2Proof.Machine
end

