-- ==== Sys2Proof/Safety.lean ====
section
/-! DEFINITION. The terms that statements use: what stays unchanged over a step, where the program counter goes, the
invariant of reachable states (10_state R42), and the runs of the machine. -/

namespace Sys2Proof.Machine

/-- The parts of the state, one per field of `State`. -/
inductive Part where
  | v | i | pc | stack | sp | dt | st | fb | keys | mem | status | keyLatch | cycleCtr | drawCtr | report | cfg
deriving DecidableEq, Repr

/-- One part is the same in two states. Memory is compared through reading, byte by byte, over all addresses. -/
def Part.Same (s t : State) : Part → Prop
  | .v => ∀ r, t.getV r = s.getV r
  | .i => t.i = s.i
  | .pc => t.pc = s.pc
  | .stack => t.stack = s.stack
  | .sp => t.sp = s.sp
  | .dt => t.dt = s.dt
  | .st => t.st = s.st
  | .fb => t.fb = s.fb
  | .keys => t.keys = s.keys
  | .mem => ∀ a, t.memRead a = s.memRead a
  | .status => t.status = s.status
  | .keyLatch => t.keyLatch = s.keyLatch
  | .cycleCtr => t.cycleCtr = s.cycleCtr
  | .drawCtr => t.drawCtr = s.drawCtr
  | .report => t.report = s.report
  | .cfg => t.cfg = s.cfg

/-- Every part not named is the same: "State that the rule does not list is unchanged" (00_scope R13). -/
def UnchangedBut (changed : List Part) (s t : State) : Prop :=
  ∀ p : Part, p ∉ changed → p.Same s t

/-- Every general register outside a list is the same. -/
def RegsUnchangedBut (changed : List Nibble) (s t : State) : Prop :=
  ∀ r : Nibble, r ∉ changed → t.getV r = s.getV r

/-- `PC` went to the next instruction: `(PC + 2) mod 4096` (60_exceptions R202). -/
def PcAdvanced (s t : State) : Prop := t.pc.toNat = (s.pc.toNat + 2) % 4096

/-- `PC` went one 2-byte slot further: `(npc + 2) mod 4096` (40_flow R104). -/
def PcSkipped (s t : State) : Prop := t.pc.toNat = (s.pc.toNat + 4) % 4096

/-- The invariant of 10_state R42 (`0 ≤ SP ≤ STACK_DEPTH` is the type of `sp`), with the canonical form of memory and
the legality of the configuration (00_scope R8) beside it. -/
structure State.Inv (s : State) : Prop where
  index : s.i.toNat < 4096
  pc : s.pc.toNat < 4096
  stack : ∀ j : Fin stackDepth, s.stack[j].toNat < 4096
  cycleCtr : s.cycleCtr ≤ s.cfg.cyclesPerFrame
  latch : (∀ x, s.status ≠ .awaitingKey x) → s.keyLatch = none
  waiting : ∀ x, s.status = .awaitingKey x → s.fetchWord = 0xF#4 ++ x ++ 0x0A#8
  memory : Memory.wf (Memory.resetByte s.cfg) s.mem = true
  config : s.cfg.wellFormed = true

/-- A legal event: a reset comes with a legal configuration (00_scope R8). -/
def Event.legal : Event → Bool
  | .reset cfg _ => cfg.wellFormed
  | _ => true

/-- The states of a run: from a reset, whatever was before it, through any legal events (60_exceptions R200, R253). -/
inductive Reachable : State → Prop where
  | reset (before : State) (cfg : Config) (rom : List Byte) (s : State) :
      cfg.wellFormed = true → before.resetWith cfg rom = .next s → Reachable s
  | event (e : Event) (s t : State) :
      Reachable s → e.legal = true → applyEvent e s = .next t → Reachable t

/-- A `FAULTED` state is never a successful one (60_exceptions R205). -/
def State.Faulted (s : State) : Prop := ∃ c, s.status = .faulted c

/-- `k` steps of the frame scheduler with no host operation between them. -/
def stepMany : Nat → State → Host.Outcome State Fault Refusal
  | 0, s => .next s
  | k + 1, s =>
    match step s with
    | .next t => stepMany k t
    | .fault r => .fault r
    | .refused r => .refused r

/-- The sprite of `Dxyn` has a 1 bit on pixel `p`, and that bit is kept (43_display R161): row `r` comes from
`MEM[(I + r) mod 4096]`, its bit `7 - c` is meant for column `V[x] mod 64 + c` and row `V[y] mod 32 + r`, and it lands
there reduced when wrapping, or only if it is on the screen when clipping. -/
def SpriteCovers (s : State) (x y n : Nibble) (p : Pixel) : Prop :=
  ∃ r c : Nat, r < n.toNat ∧ c < 8 ∧ (s.memRead (s.i.toNat + r)).getLsbD (7 - c) = true ∧
    if s.cfg.drawWrap then
      p.1.val = ((s.getV y).toNat % 32 + r) % 32 ∧ p.2.val = ((s.getV x).toNat % 64 + c) % 64
    else p.1.val = (s.getV y).toNat % 32 + r ∧ p.2.val = (s.getV x).toNat % 64 + c

/-- Whether an instruction may write register `r`, by the lists of 10_state R21 and R23 (`Fx0A` writes `V[x]` only in the
slot that ends the wait, which runs no instruction). -/
def mayWrite (r : Nibble) : Instr → Bool
  | .ldImm x _ | .addImm x _ | .ldReg x _ | .orReg x _ | .andReg x _ | .xorReg x _ | .rnd x _ | .ldVxDt x => r = x
  | .addReg x _ | .subReg x _ | .shrReg x _ | .subnReg x _ | .shlReg x _ => r = x || r = 15
  | .drw _ _ _ => r = 15
  | .ldRegs x => r.toNat ≤ x.toNat
  | .cls | .ret | .jp _ | .call _ | .seImm _ _ | .sneImm _ _ | .seReg _ _ | .sneReg _ _ | .ldI _ | .jpV0 _ | .skp _
  | .sknp _ | .ldVxK _ | .ldDtVx _ | .ldStVx _ | .addI _ | .ldF _ | .ldB _ | .stRegs _ => false

/-- The instruction that the next step runs, if it runs one: the core is `RUNNING`, a slot is left in the frame, and the
fetched word is an instruction. -/
def State.RunsNext (s : State) (i : Instr) : Prop :=
  s.status = .running ∧ s.cycleCtr < s.cfg.cyclesPerFrame ∧ decode s.fetchWord = .ok i

/-- A stretch of a run from `s`, with its number of timer ticks and its last state, without `Fx15` or `Fx18`
(44_keypad_timers R177): slots that run neither, ticks, and key operations. -/
inductive QuietRun (s : State) : Nat → State → Prop where
  | start : QuietRun s 0 s
  | slot (n : Nat) (t u : State) : QuietRun s n t → t.cycleCtr < t.cfg.cyclesPerFrame →
      (∀ x, ¬ t.RunsNext (.ldDtVx x)) → (∀ x, ¬ t.RunsNext (.ldStVx x)) → step t = .next u → QuietRun s n u
  | tick (n : Nat) (t u : State) : QuietRun s n t → t.cfg.cyclesPerFrame ≤ t.cycleCtr → step t = .next u →
      QuietRun s (n + 1) u
  | keyDown (n : Nat) (t : State) (k : Nibble) : QuietRun s n t → QuietRun s n (t.keyDown k)
  | keyUp (n : Nat) (t : State) (k : Nibble) : QuietRun s n t → QuietRun s n (t.keyUp k)

end Sys2Proof.Machine
end

