-- ==== Sys2Proof/Certificates/Slice0/Obligations.lean ====
section
/-! DEFINITION. The statements for the provers, each from the spec's numbered rules. Every statement about an
instruction also says that its words decode to it, and what it leaves unchanged (00_scope R13). -/

open Sys2Proof Sys2Proof.Machine

/-! ### Encoding (30_encoding) -/

/-- Words written out from the spec's patterns (30_encoding R74; examples of 95_test_vectors) decode to the instructions
they stand for, one of each family, and six invalid words, one of each class, to none. A sanity statement. -/
def Obligations.SampleWordsDecode : Prop :=
  decode 0x00E0#16 = .ok .cls ∧ decode 0x00EE#16 = .ok .ret ∧ decode 0x2ABC#16 = .ok (.call 0xABC) ∧
  decode 0x3A42#16 = .ok (.seImm 0xA 0x42) ∧ decode 0x8124#16 = .ok (.addReg 1 2) ∧
  decode 0xA2F0#16 = .ok (.ldI 0x2F0) ∧ decode 0xF255#16 = .ok (.stRegs 2) ∧ decode 0xD5A3#16 = .ok (.drw 5 0xA 3) ∧
  decode 0xE19E#16 = .ok (.skp 1) ∧ decode 0xF30A#16 = .ok (.ldVxK 3) ∧
  decode 0x0123#16 = .invalid .zeroNnn ∧ decode 0x5AB1#16 = .invalid .fiveXyN ∧ decode 0x8128#16 = .invalid .eightXyN ∧
  decode 0x9AB1#16 = .invalid .nineXyN ∧ decode 0xE19F#16 = .invalid .eXkk ∧ decode 0xF1FF#16 = .invalid .fXkk

/-- Decoding an encoded instruction gives it back, for all 34 instructions and every value of every field, from the word
and from its two bytes in memory order (30_encoding R70, R72, R73). -/
def Obligations.EncodeThenDecodeGivesBack : Prop :=
  ∀ i : Instr, decode (encode i) = .ok i ∧ decodeBytes (encodeBytes i) = .ok i

/-- Each instruction has one word: a word that decodes is the encoding of what it decodes to (30_encoding R74). -/
def Obligations.DecodedWordIsItsEncoding : Prop :=
  ∀ (op : Word) (i : Instr), decode op = .ok i → encode i = op

/-- 30_encoding R74: 34 rows; a word is the instruction of a row exactly when `op & mask = match`; the rows are pairwise
disjoint; a word that matches no row is invalid. -/
def Obligations.WordMatchesExactlyItsRow : Prop :=
  opcodeTable.length = 34 ∧
  (∀ (op : Word) (i : Instr), decode op = .ok i → i.row ∈ opcodeTable ∧ op &&& i.row.mask = i.row.bits) ∧
  (∀ (op : Word) (r : Row), r ∈ opcodeTable → op &&& r.mask = r.bits → ∃ i, decode op = .ok i ∧ i.row = r) ∧
  (∀ (op : Word) (r r' : Row), r ∈ opcodeTable → r' ∈ opcodeTable → op &&& r.mask = r.bits → op &&& r'.mask = r'.bits →
    r = r') ∧
  (∀ op : Word, (∀ r ∈ opcodeTable, op &&& r.mask ≠ r.bits) → ∃ e, decode op = .invalid e)

/-- 30_encoding R75: decode is total, and valid exactly by the conditions on the nibbles. -/
def Obligations.DecodeIsTotalAndValidByNibbles : Prop :=
  ∀ op : Word,
    (wellFormedWord op = true → ∃ i, decode op = .ok i) ∧
    (wellFormedWord op = false → ∃ e, decode op = .invalid e ∧ e ≠ .tooFewBytes)

/-- 30_encoding R76: the six classes of invalid words, each exactly as listed there. -/
def Obligations.InvalidWordClasses : Prop :=
  ∀ op : Word,
    (decode op = .invalid .zeroNnn ↔ fieldA op = 0x0 ∧ fieldNNN op ≠ 0x0E0 ∧ fieldNNN op ≠ 0x0EE) ∧
    (decode op = .invalid .fiveXyN ↔ fieldA op = 0x5 ∧ fieldN op ≠ 0x0) ∧
    (decode op = .invalid .nineXyN ↔ fieldA op = 0x9 ∧ fieldN op ≠ 0x0) ∧
    (decode op = .invalid .eightXyN ↔ fieldA op = 0x8 ∧ fieldN op ∈ [0x8, 0x9, 0xA, 0xB, 0xC, 0xD, 0xF]) ∧
    (decode op = .invalid .eXkk ↔ fieldA op = 0xE ∧ fieldKK op ≠ 0x9E ∧ fieldKK op ≠ 0xA1) ∧
    (decode op = .invalid .fXkk ↔
      fieldA op = 0xF ∧ fieldKK op ∉ [0x07, 0x0A, 0x15, 0x18, 0x1E, 0x29, 0x33, 0x55, 0x65])

/-! ### Fetch, the execute slot and the scheduler (20_memory, 60_exceptions) -/

/-- 20_memory R54: the byte at `PC` is the high byte of the word, the byte at `(PC + 1) mod 4096` the low one. -/
def Obligations.FetchIsBigEndian : Prop :=
  ∀ s : State, s.fetchWord.extractLsb' 8 8 = s.memRead s.pc.toNat ∧
    s.fetchWord.extractLsb' 0 8 = s.memRead ((s.pc.toNat + 1) % 4096)

/-- A step runs the decoded instruction (60_exceptions R201, R224): the state that `exec` answers is the one `step` answers,
but that a slot that did not fault is counted in `CYCLE_CTR`. -/
def Obligations.StepRunsDecodedInstruction : Prop :=
  ∀ (s : State) (i : Instr), s.RunsNext i →
    ∃ t, exec i s = .next t ∧ (¬ t.Faulted → step s = .next { t with cycleCtr := t.cycleCtr + 1 }) ∧
      (t.Faulted → step s = .next t)

/-- 60_exceptions R211: an invalid word in a `RUNNING` slot raises `InvalidOpcode`, and nothing but `STATUS` changes. -/
def Obligations.InvalidWordRaisesInvalidOpcode : Prop :=
  ∀ (s : State) (e : DecodeError), s.status = .running → s.cycleCtr < s.cfg.cyclesPerFrame →
    decode s.fetchWord = .invalid e → step s = .next { s with status := .faulted .invalidOpcode }

/-- 60_exceptions R210: whichever step raises a fault, it changes `STATUS` and nothing else. -/
def Obligations.FaultsArePrecise : Prop :=
  ∀ (s t : State) (c : FaultCause), step s = .next t → t.status = .faulted c → t = { s with status := .faulted c }

/-- 60_exceptions R211 to R213, R215: each fault has exactly its one cause, in states where a slot runs. -/
def Obligations.EachFaultHasItsOneCause : Prop :=
  ∀ s : State, s.status = .running → s.cycleCtr < s.cfg.cyclesPerFrame →
    ((∃ t, step s = .next t ∧ t.status = .faulted .invalidOpcode) ↔ ∃ e, decode s.fetchWord = .invalid e) ∧
    ((∃ t, step s = .next t ∧ t.status = .faulted .stackOverflow) ↔
      ∃ nnn, decode s.fetchWord = .ok (.call nnn) ∧ s.sp.val = 16) ∧
    ((∃ t, step s = .next t ∧ t.status = .faulted .stackUnderflow) ↔
      decode s.fetchWord = .ok .ret ∧ s.sp.val = 0)

/-- 60_exceptions R205: in `FAULTED` no step is enabled, key operations change `KEYS` only, and a reset leaves it. -/
def Obligations.FaultedHasNoEnabledStep : Prop :=
  ∀ (s : State) (c : FaultCause), s.status = .faulted c →
    step s = .fault (.halted c) ∧
    (∀ k, ∃ t, applyEvent (.keyDown k) s = .next t ∧ UnchangedBut [.keys] s t) ∧
    (∀ k, ∃ t, applyEvent (.keyUp k) s = .next t ∧ UnchangedBut [.keys] s t) ∧
    (∀ cfg rom, rom.length ≤ 3584 → ∃ t, applyEvent (.reset cfg rom) s = .next t ∧ t.status = .running)

/-- 60_exceptions R204: a slot in `AWAITING_KEY(x)` changes nothing but the scheduler's count while the latch is empty, and
ends the wait when it is full. -/
def Obligations.WaitSlotBlocksOrEndsTheWait : Prop :=
  ∀ (s : State) (x : Nibble), s.status = .awaitingKey x → s.cycleCtr < s.cfg.cyclesPerFrame →
    (s.keyLatch = none → step s = .next { s with cycleCtr := s.cycleCtr + 1 }) ∧
    (∀ k, s.keyLatch = some k → ∃ t, step s = .next t ∧ t.getV x = k.zeroExtend 8 ∧ RegsUnchangedBut [x] s t ∧
      PcAdvanced s t ∧ t.status = .running ∧ t.keyLatch = none ∧ t.cycleCtr = s.cycleCtr + 1 ∧
      UnchangedBut [.v, .pc, .status, .keyLatch, .cycleCtr] s t)

/-- 60_exceptions R220, R230, R232: when the frame's slots are used up, the step is a timer tick: both timers go down by
one and stop at 0, the framebuffer is published and the level of the new `ST` is reported. -/
def Obligations.TickCountsDownAndReports : Prop :=
  ∀ s : State, ¬ s.Faulted → s.cfg.cyclesPerFrame ≤ s.cycleCtr →
    ∃ t, step s = .next t ∧ t.dt.toNat = s.dt.toNat - 1 ∧ t.st.toNat = s.st.toNat - 1 ∧
      t.report = some { fb := s.fb, soundActive := decide (t.st ≠ 0) } ∧ t.cycleCtr = 0 ∧
      UnchangedBut [.dt, .st, .report, .cycleCtr] s t

/-- 60_exceptions R224: a frame. From the start of a frame, `CYCLES_PER_FRAME` steps that do not fault are slots, counted one
by one, and the step after them is the timer tick that starts the next frame. -/
def Obligations.FrameIsSlotsThenOneTick : Prop :=
  ∀ s : State, s.cycleCtr = 0 →
    (∀ (k : Nat) (t : State), k ≤ s.cfg.cyclesPerFrame → stepMany k s = .next t → ¬ t.Faulted → t.cycleCtr = k) ∧
    (∀ t : State, stepMany s.cfg.cyclesPerFrame s = .next t → ¬ t.Faulted →
      stepMany (s.cfg.cyclesPerFrame + 1) s = .next { t.timerTick with cycleCtr := 0 })

/-- 60_exceptions R225, 44_keypad_timers R174 (a): with no key pressed, a core that waits at the start of a frame goes
through any number of frames with the timers counting down once per frame and nothing else of the state changing but what
the ticks report. -/
def Obligations.BlockedCoreKeepsTicking : Prop :=
  ∀ (s : State) (x : Nibble) (n : Nat), s.status = .awaitingKey x → s.keyLatch = none → s.cycleCtr = 0 →
    ∃ t, stepMany (n * (s.cfg.cyclesPerFrame + 1)) s = .next t ∧ t.dt.toNat = s.dt.toNat - n ∧
      t.st.toNat = s.st.toNat - n ∧ UnchangedBut [.dt, .st, .report] s t

/-- 44_keypad_timers R177, 60_exceptions R221: after `N` ticks, with slots and key operations between them as may be but no
`Fx15` or `Fx18`, a timer that held `T` holds `max(0, T - N)`. -/
def Obligations.TimerAfterNTicks : Prop :=
  ∀ (s t : State) (n : Nat), QuietRun s n t →
    (t.dt.toNat : Int) = max 0 ((s.dt.toNat : Int) - n) ∧ (t.st.toNat : Int) = max 0 ((s.st.toNat : Int) - n)

/-! ### Host operations and reset (60_exceptions R231; 70_reset_and_hazards) -/

/-- 60_exceptions R231: `KeyDown` on a released key presses it and fills an empty latch of a waiting core; on a pressed key it
changes nothing; `KeyUp` releases the key. -/
def Obligations.KeyOperationsSetKeysAndLatch : Prop :=
  ∀ (s : State) (k : Nibble),
    (s.key k = true → applyEvent (.keyDown k) s = .next s) ∧
    (s.key k = false → ∃ t, applyEvent (.keyDown k) s = .next t ∧ t.key k = true ∧
      (∀ j, j ≠ k → t.key j = s.key j) ∧
      (∀ x, s.status = .awaitingKey x → s.keyLatch = none → t.keyLatch = some k) ∧
      (∀ l, s.keyLatch = some l → t.keyLatch = some l) ∧
      ((∀ x, s.status ≠ .awaitingKey x) → t.keyLatch = s.keyLatch) ∧
      UnchangedBut [.keys, .keyLatch] s t) ∧
    (∃ t, applyEvent (.keyUp k) s = .next t ∧ t.key k = false ∧ (∀ j, j ≠ k → t.key j = s.key j) ∧
      UnchangedBut [.keys] s t)

/-- 70_reset_and_hazards R240, R241 and 10_state R41: a reset, in any state, gives every piece of state its value of R41,
with the font at `FONT_BASE` and the ROM at 0x200; a ROM over 3584 bytes gives no state. -/
def Obligations.ResetGivesTheTableOfR41 : Prop :=
  ∀ (s : State) (cfg : Config) (rom : List Byte), cfg.wellFormed = true →
    (3584 < rom.length → applyEvent (.reset cfg rom) s = .refused .romTooLarge) ∧
    (rom.length ≤ 3584 → ∃ t, applyEvent (.reset cfg rom) s = .next t ∧
      (∀ r, t.getV r = 0) ∧ t.i = 0 ∧ t.pc = 0x200 ∧ t.sp.val = 0 ∧ (∀ j : Fin 16, t.stack[j] = 0) ∧
      t.dt = 0 ∧ t.st = 0 ∧ (∀ p, Framebuffer.pixel t.fb p = false) ∧ (∀ k, t.key k = false) ∧
      t.status = .running ∧ t.keyLatch = none ∧ t.cycleCtr = 0 ∧ t.cfg = cfg ∧
      (∀ k : Fin rom.length, t.memRead (0x200 + k.val) = rom[k]) ∧
      (∀ k : Fin 80, t.memRead (cfg.fontBase + k.val) = cfg.fontData[k]) ∧
      (∀ a, a < 4096 → (a < cfg.fontBase ∨ cfg.fontBase + 80 ≤ a) → (a < 0x200 ∨ 0x200 + rom.length ≤ a) →
        t.memRead a = 0))

/-- `State.reset` is the reset with an empty ROM under a legal configuration with the default 700 slots per frame, but for the
count of draws, which a reset does not take back (log 8), and it meets the invariant of 10_state R42. The empty ROM, the default
and the open parameters as unknown constants are the model's choice (log 3, 4, 5, 17), and so is that a reset in a run empties
the report of the last tick (log 10, unsafe for what the sinks hold until the next tick). -/
def Obligations.ResetStateIsAnEmptyRomAndMeetsInv : Prop :=
  (∀ s : State, applyEvent (.reset Config.machine []) s = .next { State.reset with drawCtr := s.drawCtr }) ∧
  Config.machine.wellFormed = true ∧
  State.reset.cfg.cyclesPerFrame = 700 ∧ State.reset.Inv

/-! ### Control transfer (40_flow) -/

/-- 40_flow R100, 10_state R25: RET pops the top entry into `PC`, or raises `StackUnderflow` on an empty stack. R100 writes the
entry as it stands; that it is reduced mod 4096, which changes no entry of a reachable state (R42), is log 19 (DEDUCED). -/
def Obligations.RetPopsIntoPc : Prop :=
  decode 0x00EE#16 = .ok .ret ∧
  ∀ s : State,
    (s.sp.val = 0 → exec .ret s = .next { s with status := .faulted .stackUnderflow }) ∧
    (∀ j : Fin 16, s.sp.val = j.val + 1 → ∃ t, exec .ret s = .next t ∧ t.pc.toNat = s.stack[j].toNat % 4096 ∧
      t.sp.val = j.val ∧ UnchangedBut [.pc, .sp] s t)

/-- 40_flow R101: JP sets `PC` to `nnn` and changes nothing else. -/
def Obligations.JpSetsPc : Prop :=
  ∀ (s : State) (nnn : Addr), decode (0x1#4 ++ nnn) = .ok (.jp nnn) ∧
    ∃ t, exec (.jp nnn) s = .next t ∧ t.pc.toNat = nnn.toNat ∧ UnchangedBut [.pc] s t

/-- 40_flow R102: CALL pushes `npc` and jumps, or raises `StackOverflow` when 16 entries are in use. -/
def Obligations.CallPushesNpcAndJumps : Prop :=
  ∀ (s : State) (nnn : Addr), decode (0x2#4 ++ nnn) = .ok (.call nnn) ∧
    (s.sp.val = 16 → exec (.call nnn) s = .next { s with status := .faulted .stackOverflow }) ∧
    (∀ j : Fin 16, s.sp.val = j.val → ∃ t, exec (.call nnn) s = .next t ∧
      t.stack[j].toNat = (s.pc.toNat + 2) % 4096 ∧ (∀ k : Fin 16, k ≠ j → t.stack[k] = s.stack[k]) ∧
      t.sp.val = j.val + 1 ∧ t.pc.toNat = nnn.toNat ∧ UnchangedBut [.stack, .sp, .pc] s t)

/-- 40_flow R103: JP V0 adds `V[0]` to `nnn`, mod 4096, whatever the inert quirk says. -/
def Obligations.JpV0AddsV0 : Prop :=
  ∀ (s : State) (nnn : Addr), decode (0xB#4 ++ nnn) = .ok (.jpV0 nnn) ∧
    ∃ t, exec (.jpV0 nnn) s = .next t ∧ t.pc.toNat = (nnn.toNat + (s.getV 0).toNat) % 4096 ∧ UnchangedBut [.pc] s t

/-- 40_flow R104, R105: the skips against a byte. -/
def Obligations.SkipsAgainstAByte : Prop :=
  ∀ (s : State) (x : Nibble) (kk : Byte),
    decode (0x3#4 ++ x ++ kk) = .ok (.seImm x kk) ∧ decode (0x4#4 ++ x ++ kk) = .ok (.sneImm x kk) ∧
    (∃ t, exec (.seImm x kk) s = .next t ∧ (s.getV x = kk → PcSkipped s t) ∧ (s.getV x ≠ kk → PcAdvanced s t) ∧
      UnchangedBut [.pc] s t) ∧
    (∃ t, exec (.sneImm x kk) s = .next t ∧ (s.getV x ≠ kk → PcSkipped s t) ∧ (s.getV x = kk → PcAdvanced s t) ∧
      UnchangedBut [.pc] s t)

/-- 40_flow R106, R107: the skips of two registers; with a nonzero low nibble the word is invalid. -/
def Obligations.SkipsOfTwoRegisters : Prop :=
  ∀ (s : State) (x y : Nibble),
    decode (0x5#4 ++ x ++ y ++ 0x0#4) = .ok (.seReg x y) ∧ decode (0x9#4 ++ x ++ y ++ 0x0#4) = .ok (.sneReg x y) ∧
    (∀ n : Nibble, n ≠ 0 → decode (0x5#4 ++ x ++ y ++ n) = .invalid .fiveXyN ∧
      decode (0x9#4 ++ x ++ y ++ n) = .invalid .nineXyN) ∧
    (∃ t, exec (.seReg x y) s = .next t ∧ (s.getV x = s.getV y → PcSkipped s t) ∧
      (s.getV x ≠ s.getV y → PcAdvanced s t) ∧ UnchangedBut [.pc] s t) ∧
    (∃ t, exec (.sneReg x y) s = .next t ∧ (s.getV x ≠ s.getV y → PcSkipped s t) ∧
      (s.getV x = s.getV y → PcAdvanced s t) ∧ UnchangedBut [.pc] s t)

/-- 40_flow R108: a call, and a return from any state with the same stack and depth, resumes at the instruction after the
call with `SP` restored. -/
def Obligations.CallThenRetResumes : Prop :=
  ∀ (s t u w : State) (nnn : Addr), s.sp.val < 16 → exec (.call nnn) s = .next t → u.stack = t.stack → u.sp = t.sp →
    exec .ret u = .next w → w.pc.toNat = (s.pc.toNat + 2) % 4096 ∧ w.sp = s.sp

/-! ### Register loads, arithmetic, logic, shifts, random (41_alu) -/

/-- 41_alu R120, R121: load and add a byte; the addition sets no flag. -/
def Obligations.LoadAndAddAByte : Prop :=
  ∀ (s : State) (x : Nibble) (kk : Byte),
    decode (0x6#4 ++ x ++ kk) = .ok (.ldImm x kk) ∧ decode (0x7#4 ++ x ++ kk) = .ok (.addImm x kk) ∧
    (∃ t, exec (.ldImm x kk) s = .next t ∧ t.getV x = kk ∧ RegsUnchangedBut [x] s t ∧ PcAdvanced s t ∧
      UnchangedBut [.v, .pc] s t) ∧
    (∃ t, exec (.addImm x kk) s = .next t ∧ (t.getV x).toNat = ((s.getV x).toNat + kk.toNat) % 256 ∧
      RegsUnchangedBut [x] s t ∧ PcAdvanced s t ∧ UnchangedBut [.v, .pc] s t)

/-- 41_alu R122 to R125: assign, OR, AND, XOR of two registers, bit by bit; `VF` is not written as a flag. -/
def Obligations.AssignAndLogicOfTwoRegisters : Prop :=
  ∀ (s : State) (x y : Nibble),
    decode (0x8#4 ++ x ++ y ++ 0x0#4) = .ok (.ldReg x y) ∧ decode (0x8#4 ++ x ++ y ++ 0x1#4) = .ok (.orReg x y) ∧
    decode (0x8#4 ++ x ++ y ++ 0x2#4) = .ok (.andReg x y) ∧ decode (0x8#4 ++ x ++ y ++ 0x3#4) = .ok (.xorReg x y) ∧
    (∃ t, exec (.ldReg x y) s = .next t ∧ t.getV x = s.getV y ∧ RegsUnchangedBut [x] s t ∧ PcAdvanced s t ∧
      UnchangedBut [.v, .pc] s t) ∧
    (∃ t, exec (.orReg x y) s = .next t ∧
      (∀ b, (t.getV x).getLsbD b = ((s.getV x).getLsbD b || (s.getV y).getLsbD b)) ∧
      RegsUnchangedBut [x] s t ∧ PcAdvanced s t ∧ UnchangedBut [.v, .pc] s t) ∧
    (∃ t, exec (.andReg x y) s = .next t ∧
      (∀ b, (t.getV x).getLsbD b = ((s.getV x).getLsbD b && (s.getV y).getLsbD b)) ∧
      RegsUnchangedBut [x] s t ∧ PcAdvanced s t ∧ UnchangedBut [.v, .pc] s t) ∧
    (∃ t, exec (.xorReg x y) s = .next t ∧
      (∀ b, (t.getV x).getLsbD b = ((s.getV x).getLsbD b ^^ (s.getV y).getLsbD b)) ∧
      RegsUnchangedBut [x] s t ∧ PcAdvanced s t ∧ UnchangedBut [.v, .pc] s t)

/-- 41_alu R126: the sum mod 256 goes to `V[x]`, the carry to `VF`, which wins when `x = 15` (10_state R22). -/
def Obligations.AddSetsSumAndCarry : Prop :=
  ∀ (s : State) (x y : Nibble), decode (0x8#4 ++ x ++ y ++ 0x4#4) = .ok (.addReg x y) ∧
    ∃ t, exec (.addReg x y) s = .next t ∧
      (x ≠ 15 → (t.getV x).toNat = ((s.getV x).toNat + (s.getV y).toNat) % 256) ∧
      (t.getV 15).toNat = (if (s.getV x).toNat + (s.getV y).toNat > 255 then 1 else 0) ∧
      RegsUnchangedBut [x, 15] s t ∧ PcAdvanced s t ∧ UnchangedBut [.v, .pc] s t

/-- 41_alu R127, R129: the difference mod 256 goes to `V[x]`, NOT borrow to `VF`, which wins when `x = 15`; SUB takes `V[y]`
from `V[x]`, SUBN `V[x]` from `V[y]`. -/
def Obligations.SubtractionsSetDifferenceAndNotBorrow : Prop :=
  ∀ (s : State) (x y : Nibble),
    decode (0x8#4 ++ x ++ y ++ 0x5#4) = .ok (.subReg x y) ∧ decode (0x8#4 ++ x ++ y ++ 0x7#4) = .ok (.subnReg x y) ∧
    (∃ t, exec (.subReg x y) s = .next t ∧
      (x ≠ 15 → (t.getV x).toNat = ((s.getV x).toNat + 256 - (s.getV y).toNat) % 256) ∧
      (t.getV 15).toNat = (if (s.getV x).toNat ≥ (s.getV y).toNat then 1 else 0) ∧
      RegsUnchangedBut [x, 15] s t ∧ PcAdvanced s t ∧ UnchangedBut [.v, .pc] s t) ∧
    (∃ t, exec (.subnReg x y) s = .next t ∧
      (x ≠ 15 → (t.getV x).toNat = ((s.getV y).toNat + 256 - (s.getV x).toNat) % 256) ∧
      (t.getV 15).toNat = (if (s.getV y).toNat ≥ (s.getV x).toNat then 1 else 0) ∧
      RegsUnchangedBut [x, 15] s t ∧ PcAdvanced s t ∧ UnchangedBut [.v, .pc] s t)

/-- 41_alu R128, R130: the source is `V[y]` under `shift_legacy` and `V[x]` otherwise; the bit shifted out goes to `VF`, which
wins when `x = 15`. -/
def Obligations.ShiftsMoveOneBitOut : Prop :=
  ∀ (s : State) (x y : Nibble) (v : Nat), v = (if s.cfg.shiftLegacy then s.getV y else s.getV x).toNat →
    decode (0x8#4 ++ x ++ y ++ 0x6#4) = .ok (.shrReg x y) ∧ decode (0x8#4 ++ x ++ y ++ 0xE#4) = .ok (.shlReg x y) ∧
    (∃ t, exec (.shrReg x y) s = .next t ∧ (x ≠ 15 → (t.getV x).toNat = v / 2) ∧ (t.getV 15).toNat = v % 2 ∧
      RegsUnchangedBut [x, 15] s t ∧ PcAdvanced s t ∧ UnchangedBut [.v, .pc] s t) ∧
    (∃ t, exec (.shlReg x y) s = .next t ∧ (x ≠ 15 → (t.getV x).toNat = v * 2 % 256) ∧ (t.getV 15).toNat = v / 128 ∧
      RegsUnchangedBut [x, 15] s t ∧ PcAdvanced s t ∧ UnchangedBut [.v, .pc] s t)

/-- 41_alu R131, 60_exceptions R233: `V[x]` is the drawn byte ANDed with `kk`, whatever byte is drawn, so no bit outside `kk` is
set; the draw is consumed. That draws are numbered and the number moves on by one is the model's choice (log 8). -/
def Obligations.RndMasksAFreeByte : Prop :=
  ∀ (s : State) (x : Nibble) (kk : Byte), decode (0xC#4 ++ x ++ kk) = .ok (.rnd x kk) ∧
    ∃ t, exec (.rnd x kk) s = .next t ∧ t.getV x = Config.draw8 s.drawCtr &&& kk ∧
      (∀ b, (t.getV x).getLsbD b = true → kk.getLsbD b = true) ∧ t.drawCtr = s.drawCtr + 1 ∧
      RegsUnchangedBut [x] s t ∧ PcAdvanced s t ∧ UnchangedBut [.v, .pc, .drawCtr] s t

/-! ### Index register and memory transfer (42_index_memory) -/

/-- 42_index_memory R140, R141: load and add to `I`, mod 4096; no register is written, `VF` included. -/
def Obligations.IndexLoadAndAdd : Prop :=
  ∀ (s : State) (x : Nibble) (nnn : Addr),
    decode (0xA#4 ++ nnn) = .ok (.ldI nnn) ∧ decode (0xF#4 ++ x ++ 0x1E#8) = .ok (.addI x) ∧
    (∃ t, exec (.ldI nnn) s = .next t ∧ t.i.toNat = nnn.toNat ∧ PcAdvanced s t ∧ UnchangedBut [.i, .pc] s t) ∧
    (∃ t, exec (.addI x) s = .next t ∧ t.i.toNat = (s.i.toNat + (s.getV x).toNat) % 4096 ∧ PcAdvanced s t ∧
      UnchangedBut [.i, .pc] s t)

/-- 42_index_memory R142: under a legal configuration (00_scope R8), `I` becomes the address of the glyph for the low nibble
of `V[x]`, with no wrap. -/
def Obligations.GlyphAddressGoesToIndex : Prop :=
  ∀ (s : State) (x : Nibble), s.cfg.wellFormed = true →
    decode (0xF#4 ++ x ++ 0x29#8) = .ok (.ldF x) ∧
    ∃ t, exec (.ldF x) s = .next t ∧ t.i.toNat = s.cfg.fontBase + 5 * ((s.getV x).toNat % 16) ∧ t.i.toNat < 0x200 ∧
      PcAdvanced s t ∧ UnchangedBut [.i, .pc] s t

/-- 42_index_memory R144: the three BCD digits go to `I`, `I+1`, `I+2`, each address reduced mod 4096; every other byte reads
as before. The premise is the canonical form of memory, an invariant. -/
def Obligations.BcdDigitsAreStored : Prop :=
  ∀ (s : State) (x : Nibble), Memory.wf (Memory.resetByte s.cfg) s.mem = true →
    decode (0xF#4 ++ x ++ 0x33#8) = .ok (.ldB x) ∧
    ∃ t, exec (.ldB x) s = .next t ∧
      (t.memRead s.i.toNat).toNat = (s.getV x).toNat / 100 ∧
      (t.memRead (s.i.toNat + 1)).toNat = (s.getV x).toNat / 10 % 10 ∧
      (t.memRead (s.i.toNat + 2)).toNat = (s.getV x).toNat % 10 ∧
      (∀ a, (∀ k < 3, a % 4096 ≠ (s.i.toNat + k) % 4096) → t.memRead a = s.memRead a) ∧
      PcAdvanced s t ∧ UnchangedBut [.mem, .pc] s t

/-- 42_index_memory R145: `V[0]..V[x]` go to `I .. I+x`, each address reduced mod 4096; every other byte reads as before; `I`
grows by `x + 1` mod 4096 under `load_store_increment_i` and is unchanged otherwise. -/
def Obligations.RegistersAreStored : Prop :=
  ∀ (s : State) (x : Nibble), Memory.wf (Memory.resetByte s.cfg) s.mem = true →
    decode (0xF#4 ++ x ++ 0x55#8) = .ok (.stRegs x) ∧
    ∃ t, exec (.stRegs x) s = .next t ∧
      (∀ k : Nibble, k.toNat ≤ x.toNat → t.memRead (s.i.toNat + k.toNat) = s.getV k) ∧
      (∀ a, (∀ k ≤ x.toNat, a % 4096 ≠ (s.i.toNat + k) % 4096) → t.memRead a = s.memRead a) ∧
      (s.cfg.loadStoreIncrementI = true → t.i.toNat = (s.i.toNat + x.toNat + 1) % 4096) ∧
      (s.cfg.loadStoreIncrementI = false → t.i = s.i) ∧
      PcAdvanced s t ∧ UnchangedBut [.mem, .i, .pc] s t

/-- 42_index_memory R146: `V[0]..V[x]` come from `I .. I+x`, the other registers stay; `I` as in R145; no memory is
written. -/
def Obligations.RegistersAreLoaded : Prop :=
  ∀ (s : State) (x : Nibble), decode (0xF#4 ++ x ++ 0x65#8) = .ok (.ldRegs x) ∧
    ∃ t, exec (.ldRegs x) s = .next t ∧
      (∀ k : Nibble, k.toNat ≤ x.toNat → t.getV k = s.memRead (s.i.toNat + k.toNat)) ∧
      (∀ k : Nibble, x.toNat < k.toNat → t.getV k = s.getV k) ∧
      (s.cfg.loadStoreIncrementI = true → t.i.toNat = (s.i.toNat + x.toNat + 1) % 4096) ∧
      (s.cfg.loadStoreIncrementI = false → t.i = s.i) ∧
      PcAdvanced s t ∧ UnchangedBut [.v, .i, .pc] s t

/-- 42_index_memory R147: a load of the same registers from the same `I`, after a store, whatever became of the registers in
between, restores them; `I` ends `x + 1` further under the quirk and unchanged without it. Under the quirk, with `I` not
set back, the load reads the bytes after the stored block instead. -/
def Obligations.StoreThenLoadRestoresRegisters : Prop :=
  ∀ (s t u w : State) (x : Nibble), Memory.wf (Memory.resetByte s.cfg) s.mem = true →
    exec (.stRegs x) s = .next t → u.mem = t.mem → u.cfg = t.cfg → exec (.ldRegs x) u = .next w →
    (u.i = s.i → (∀ k : Nibble, k.toNat ≤ x.toNat → w.getV k = s.getV k) ∧
      (s.cfg.loadStoreIncrementI = true → w.i.toNat = (s.i.toNat + x.toNat + 1) % 4096) ∧
      (s.cfg.loadStoreIncrementI = false → w.i = s.i)) ∧
    (s.cfg.loadStoreIncrementI = true → u.i = t.i →
      ∀ k : Nibble, k.toNat ≤ x.toNat → w.getV k = s.memRead (s.i.toNat + x.toNat + 1 + k.toNat))

/-- 20_memory R62: a block store over the bytes at `npc` is what the very next fetch reads. -/
def Obligations.StoredCodeIsFetchedNext : Prop :=
  ∀ (s t : State) (x k : Nibble), Memory.wf (Memory.resetByte s.cfg) s.mem = true → k.toNat + 1 ≤ x.toNat →
    (s.pc.toNat + 2) % 4096 = (s.i.toNat + k.toNat) % 4096 → exec (.stRegs x) s = .next t →
    t.fetchWord = s.getV k ++ s.getV (k + 1)

/-! ### Display (43_display) -/

/-- 43_display R160: CLS unsets every pixel; no register is written. -/
def Obligations.ClsUnsetsEveryPixel : Prop :=
  decode 0x00E0#16 = .ok .cls ∧
  ∀ s : State, ∃ t, exec .cls s = .next t ∧ (∀ p, Framebuffer.pixel t.fb p = false) ∧ PcAdvanced s t ∧
    UnchangedBut [.fb, .pc] s t

/-- 43_display R161: DRW flips exactly the pixels that the sprite covers, and `VF` is 1 exactly when one of them was set. -/
def Obligations.DrwFlipsCoveredPixels : Prop :=
  ∀ (s : State) (x y n : Nibble), decode (0xD#4 ++ x ++ y ++ n) = .ok (.drw x y n) ∧
    ∃ t, exec (.drw x y n) s = .next t ∧
      (∀ p, SpriteCovers s x y n p → Framebuffer.pixel t.fb p = !Framebuffer.pixel s.fb p) ∧
      (∀ p, ¬ SpriteCovers s x y n p → Framebuffer.pixel t.fb p = Framebuffer.pixel s.fb p) ∧
      ((∃ p, SpriteCovers s x y n p ∧ Framebuffer.pixel s.fb p = true) → t.getV 15 = 1) ∧
      ((∀ p, SpriteCovers s x y n p → Framebuffer.pixel s.fb p = false) → t.getV 15 = 0) ∧
      RegsUnchangedBut [15] s t ∧ PcAdvanced s t ∧ UnchangedBut [.fb, .v, .pc] s t

/-- 43_display R162: the same sprite drawn again at the same place restores the framebuffer; the first draw collides exactly
when a covered pixel was set, the second exactly when a covered pixel was unset. -/
def Obligations.DrawingTwiceRestoresFramebuffer : Prop :=
  ∀ (s t u w : State) (x y n : Nibble), exec (.drw x y n) s = .next t → u.fb = t.fb → u.i = s.i → u.cfg = s.cfg →
    (∀ a, u.memRead a = s.memRead a) → u.getV x = s.getV x → u.getV y = s.getV y → exec (.drw x y n) u = .next w →
    w.fb = s.fb ∧ (t.getV 15 = 0 ∨ t.getV 15 = 1) ∧ (w.getV 15 = 0 ∨ w.getV 15 = 1) ∧
    (t.getV 15 = 1 ↔ ∃ p, SpriteCovers s x y n p ∧ Framebuffer.pixel s.fb p = true) ∧
    (w.getV 15 = 1 ↔ ∃ p, SpriteCovers s x y n p ∧ Framebuffer.pixel s.fb p = false)

/-! ### Keypad and timers (44_keypad_timers) -/

/-- 44_keypad_timers R170, R171: the key tested is the low nibble of `V[x]`. -/
def Obligations.SkipsByKeyState : Prop :=
  ∀ (s : State) (x k : Nibble), k.toNat = (s.getV x).toNat % 16 →
    decode (0xE#4 ++ x ++ 0x9E#8) = .ok (.skp x) ∧ decode (0xE#4 ++ x ++ 0xA1#8) = .ok (.sknp x) ∧
    (∃ t, exec (.skp x) s = .next t ∧ (s.key k = true → PcSkipped s t) ∧ (s.key k = false → PcAdvanced s t) ∧
      UnchangedBut [.pc] s t) ∧
    (∃ t, exec (.sknp x) s = .next t ∧ (s.key k = false → PcSkipped s t) ∧ (s.key k = true → PcAdvanced s t) ∧
      UnchangedBut [.pc] s t)

/-- 44_keypad_timers R172, R175, R176: reading `DT`, writing `DT`, writing `ST`. -/
def Obligations.TimerLoads : Prop :=
  ∀ (s : State) (x : Nibble),
    decode (0xF#4 ++ x ++ 0x07#8) = .ok (.ldVxDt x) ∧ decode (0xF#4 ++ x ++ 0x15#8) = .ok (.ldDtVx x) ∧
    decode (0xF#4 ++ x ++ 0x18#8) = .ok (.ldStVx x) ∧
    (∃ t, exec (.ldVxDt x) s = .next t ∧ t.getV x = s.dt ∧ RegsUnchangedBut [x] s t ∧ PcAdvanced s t ∧
      UnchangedBut [.v, .pc] s t) ∧
    (∃ t, exec (.ldDtVx x) s = .next t ∧ t.dt = s.getV x ∧ PcAdvanced s t ∧ UnchangedBut [.dt, .pc] s t) ∧
    (∃ t, exec (.ldStVx x) s = .next t ∧ t.st = s.getV x ∧ PcAdvanced s t ∧ UnchangedBut [.st, .pc] s t)

/-- 44_keypad_timers R174: `Fx0A` starts the wait and does not advance `PC`; a waiting slot with an empty latch changes
nothing but is counted, and ticks go on; a key already held or a release does not end the wait; a press of a released key
during the wait, the first one, is what `V[x]` receives in the slot that ends it. -/
def Obligations.WaitForKeyReceivesTheFirstNewPress : Prop :=
  ∀ (s : State) (x : Nibble), decode (0xF#4 ++ x ++ 0x0A#8) = .ok (.ldVxK x) ∧
    ∃ t, exec (.ldVxK x) s = .next t ∧ t = { s with status := .awaitingKey x, keyLatch := none } ∧
      execSlot t = .next t ∧
      (s.cycleCtr < s.cfg.cyclesPerFrame → step t = .next { t with cycleCtr := t.cycleCtr + 1 }) ∧
      (s.cfg.cyclesPerFrame ≤ s.cycleCtr → step t = .next { t.timerTick with cycleCtr := 0 }) ∧
      (∀ k, ∃ u, applyEvent (.keyUp k) t = .next u ∧ execSlot u = .next u) ∧
      (∀ k, s.key k = true → ∃ u, applyEvent (.keyDown k) t = .next u ∧ execSlot u = .next u) ∧
      (∀ k j, s.key k = false → ∃ u u' w, applyEvent (.keyDown k) t = .next u ∧ applyEvent (.keyDown j) u = .next u' ∧
        execSlot u' = .next w ∧ w.getV x = k.zeroExtend 8 ∧ RegsUnchangedBut [x] s w ∧ PcAdvanced s w ∧
        w.status = .running ∧ w.keyLatch = none ∧ UnchangedBut [.v, .pc, .keys, .status, .keyLatch] s w)

/-! ### Invariants and rules about the whole machine -/

/-- Every step keeps the invariant of 10_state R42 (with the canonical form of memory), from every state that has it. -/
def Obligations.StepKeepsInv : Prop := ∀ s t : State, s.Inv → step s = .next t → t.Inv

/-- 10_state R42: every state reachable from reset by the events of the spec has the invariant. The last line is not in R42: the
canonical form of memory is the model's choice (log 11), and the legal configuration is 00_scope R8. -/
def Obligations.ReachableStatesHaveInv : Prop :=
  ∀ s : State, Reachable s →
    s.i.toNat < 4096 ∧ s.pc.toNat < 4096 ∧ (∀ j : Fin 16, s.stack[j].toNat < 4096) ∧ s.sp.val ≤ 16 ∧
    s.cycleCtr ≤ s.cfg.cyclesPerFrame ∧ ((∀ x, s.status ≠ .awaitingKey x) → s.keyLatch = none) ∧
    (∀ x, s.status = .awaitingKey x →
      s.memRead s.pc.toNat ++ s.memRead ((s.pc.toNat + 1) % 4096) = 0xF#4 ++ x ++ 0x0A#8) ∧
    Memory.wf (Memory.resetByte s.cfg) s.mem = true ∧ s.cfg.wellFormed = true

/-- 60_exceptions R233: no draw is taken twice, by any event. Only a step that runs `Cxkk` moves the number of the next draw, by
one; a reset leaves it. The number is the model's own (log 8). -/
def Obligations.NoDrawIsTakenTwice : Prop :=
  ∀ (e : Event) (s t : State), applyEvent e s = .next t →
    (t.drawCtr = s.drawCtr ∨ ∃ x kk, e = .schedStep ∧ s.RunsNext (.rnd x kk)) ∧
    (∀ x kk, e = .schedStep → s.RunsNext (.rnd x kk) → t.drawCtr = s.drawCtr + 1)

/-- No instruction stops: `exec` answers a next state for every instruction in every state. -/
def Obligations.EveryInstructionAnswersNext : Prop := ∀ (i : Instr) (s : State), ∃ t, exec i s = .next t

/-- A step stops exactly in `FAULTED` (60_exceptions R205), and is never refused. -/
def Obligations.StepStopsExactlyWhenFaulted : Prop :=
  ∀ s : State, (s.Faulted ↔ ∃ r, step s = .fault r) ∧ (∀ r, step s ≠ .refused r) ∧ (¬ s.Faulted → ∃ t, step s = .next t)

/-- No step writes the keypad state or the configuration (10_state R35, R39). -/
def Obligations.StepNeverWritesKeysOrConfig : Prop :=
  ∀ s t : State, step s = .next t → t.keys = s.keys ∧ t.cfg = s.cfg

/-- 10_state R33: the transitions of `STATUS` in a step, and that key operations make none. -/
def Obligations.StatusTransitions : Prop :=
  (∀ s t : State, step s = .next t → s.status = .running →
    t.status = .running ∨ (∃ x, s.RunsNext (.ldVxK x) ∧ t.status = .awaitingKey x) ∨ ∃ c, t.status = .faulted c) ∧
  (∀ (s t : State) (x : Nibble), step s = .next t → s.status = .awaitingKey x →
    t.status = .awaitingKey x ∨ (t.status = .running ∧ ∃ k, s.keyLatch = some k)) ∧
  (∀ (s t : State) (k : Nibble), applyEvent (.keyDown k) s = .next t ∨ applyEvent (.keyUp k) s = .next t →
    t.status = s.status)

/-- 10_state R32: only `00E0` and `Dxyn` change the framebuffer. -/
def Obligations.OnlyClsAndDrwChangeTheFramebuffer : Prop :=
  ∀ s t : State, step s = .next t → t.fb ≠ s.fb → s.RunsNext .cls ∨ ∃ x y n, s.RunsNext (.drw x y n)

/-- 20_memory R52: only `Fx33` and `Fx55` change a byte of memory. -/
def Obligations.OnlyStoresChangeMemory : Prop :=
  ∀ (s t : State) (a : Nat), step s = .next t → t.memRead a ≠ s.memRead a →
    ∃ x, s.RunsNext (.ldB x) ∨ s.RunsNext (.stRegs x)

/-- 10_state R29: only `2nnn` and `00EE` touch the call stack, and only `2nnn` writes an entry. -/
def Obligations.OnlyCallAndRetTouchTheStack : Prop :=
  ∀ s t : State, step s = .next t →
    (t.stack ≠ s.stack → ∃ nnn, s.RunsNext (.call nnn)) ∧
    (t.sp ≠ s.sp → s.RunsNext .ret ∨ ∃ nnn, s.RunsNext (.call nnn))

/-- 10_state R30, R31: a timer changes only in a tick, or by the instruction that writes it. -/
def Obligations.OnlyTicksAndTimerLoadsChangeTimers : Prop :=
  ∀ s t : State, step s = .next t → s.cycleCtr < s.cfg.cyclesPerFrame →
    (t.dt ≠ s.dt → ∃ x, s.RunsNext (.ldDtVx x)) ∧ (t.st ≠ s.st → ∃ x, s.RunsNext (.ldStVx x))

/-- 10_state R21, R23: an instruction writes no register but those it is listed for, and the six flag instructions leave 0 or
1 in `VF`. -/
def Obligations.InstructionsWriteOnlyTheirRegisters : Prop :=
  ∀ (i : Instr) (s t : State), exec i s = .next t →
    (∀ r, mayWrite r i = false → t.getV r = s.getV r) ∧
    ((∃ x y, i = .addReg x y ∨ i = .subReg x y ∨ i = .shrReg x y ∨ i = .subnReg x y ∨ i = .shlReg x y) ∨
      (∃ x y n, i = .drw x y n) → t.getV 15 = 0 ∨ t.getV 15 = 1)

/-- 10_state R31: no instruction reads `ST`: with another `ST`, every instruction does the same to everything else. -/
def Obligations.SoundTimerIsNeverRead : Prop :=
  ∀ (i : Instr) (s t : State) (b : Byte), exec i s = .next t →
    ∃ t', exec i { s with st := b } = .next t' ∧ { t' with st := t.st } = t

/-- 10_state R39, 40_flow R103: `jump_with_v0_quirk` is inert: with the other setting, every instruction does the same. -/
def Obligations.JumpQuirkIsInert : Prop :=
  ∀ (i : Instr) (s t : State) (b : Bool), exec i s = .next t →
    exec i { s with cfg := { s.cfg with jumpWithV0Quirk := b } } =
      .next { t with cfg := { t.cfg with jumpWithV0Quirk := b } }
end

