-- ==== Sys2Proof/Laws/Memory.lean ====
section
/-! SUPPORT. Memory: every operation keeps the canonical form, and reading after a write. -/

namespace Sys2Proof.Machine

variable {d : Nat → Byte}

theorem Memory.wfFrom_cons {lo a : Nat} {v : Byte} {m : List Host.Cell} :
    Memory.wfFrom d lo ((a, v) :: m) = true ↔ lo ≤ a ∧ a < memSize ∧ v ≠ d a ∧ Memory.wfFrom d (a + 1) m = true := by
  simp [Memory.wfFrom, and_assoc]

theorem Memory.wfFrom_mono {lo lo' : Nat} (h : lo' ≤ lo) {m : List Host.Cell} (hm : Memory.wfFrom d lo m = true) :
    Memory.wfFrom d lo' m = true := by
  cases m with
  | nil => rfl
  | cons c m =>
    obtain ⟨a, v⟩ := c
    rw [Memory.wfFrom_cons] at hm ⊢
    exact ⟨h.trans hm.1, hm.2⟩

/-- Below its lower bound, a memory lists nothing. -/
theorem Memory.read_of_lt {m : List Host.Cell} {lo a : Nat} (hm : Memory.wfFrom d lo m = true) (h : a < lo) :
    Memory.read d m a = d a := by
  induction m generalizing lo with
  | nil => rfl
  | cons c m ih =>
    obtain ⟨b, w⟩ := c
    rw [Memory.wfFrom_cons] at hm
    have hne : a ≠ b := by omega
    simpa [Memory.read, hne] using ih hm.2.2.2 (by omega)

theorem Memory.wfFrom_write {m : List Host.Cell} {lo a : Nat} {v : Byte} (hm : Memory.wfFrom d lo m = true)
    (hlo : lo ≤ a) (ha : a < memSize) : Memory.wfFrom d lo (Memory.write d m a v) = true := by
  induction m generalizing lo with
  | nil =>
    by_cases hv : v = d a
    · simp [Memory.write, hv, Memory.wfFrom]
    · simp [Memory.write, hv, Memory.wfFrom, hlo, ha]
  | cons c m ih =>
    obtain ⟨b, w⟩ := c
    rw [Memory.wfFrom_cons] at hm
    obtain ⟨hb, hbs, hw, hm⟩ := hm
    unfold Memory.write
    split_ifs with h1 h2 h3 h4
    · exact Memory.wfFrom_cons.2 ⟨hb, hbs, hw, hm⟩
    · exact Memory.wfFrom_cons.2 ⟨hlo, ha, h2, Memory.wfFrom_cons.2 ⟨by omega, hbs, hw, hm⟩⟩
    · exact Memory.wfFrom_mono (by omega) hm
    · exact Memory.wfFrom_cons.2 ⟨hlo, ha, h4, h3 ▸ hm⟩
    · exact Memory.wfFrom_cons.2 ⟨hb, hbs, hw, ih hm (by omega)⟩

/-- A write keeps the canonical form. -/
theorem Memory.wf_write {m : List Host.Cell} {a : Nat} {v : Byte} (hm : Memory.wf d m = true) (ha : a < memSize) :
    Memory.wf d (Memory.write d m a v) = true :=
  Memory.wfFrom_write hm (Nat.zero_le _) ha

theorem Memory.read_write_from {m : List Host.Cell} {lo a b : Nat} {v : Byte} (hm : Memory.wfFrom d lo m = true) :
    Memory.read d (Memory.write d m a v) b = if b = a then v else Memory.read d m b := by
  induction m generalizing lo with
  | nil =>
    by_cases hv : v = d a <;> by_cases hb : b = a <;> simp [Memory.write, Memory.read, hv, hb]
  | cons c m ih =>
    obtain ⟨k, w⟩ := c
    rw [Memory.wfFrom_cons] at hm
    obtain ⟨_, _, _, hm⟩ := hm
    unfold Memory.write
    split_ifs with h1 h2 h3 h4 h5 h6 h7 h8 h9
    · subst h3
      have : b ≠ k := by omega
      simp [Memory.read, this, h2, Memory.read_of_lt hm (show b < k + 1 by omega)]
    · rfl
    · simp [Memory.read, h4]
    · simp [Memory.read, h4]
    · subst h7; subst h5
      rw [h6, Memory.read_of_lt hm (show b < b + 1 by omega)]
    · subst h5
      simp [Memory.read, h7]
    · simp [Memory.read, h8]
    · subst h5
      simp [Memory.read, h8]
    · subst h9
      simpa [Memory.read, h5] using ih hm
    · simp only [Memory.read, ih hm, h9, if_false]

/-- Reading after a write: the written byte at its address, every other byte as before. -/
theorem Memory.read_write {m : List Host.Cell} {a b : Nat} {v : Byte} (hm : Memory.wf d m = true) :
    Memory.read d (Memory.write d m a v) b = if b = a then v else Memory.read d m b :=
  Memory.read_write_from hm

/-- A block store keeps the canonical form. -/
theorem Memory.wf_writeBlock {bs : List Byte} {m : List Host.Cell} {a : Nat} (hm : Memory.wf d m = true) :
    Memory.wf d (Memory.writeBlock d m a bs) = true := by
  induction bs generalizing m a with
  | nil => exact hm
  | cons v vs ih => exact ih (Memory.wf_write hm (Nat.mod_lt _ (by decide)))

/-- Outside the stored bytes, a block store changes nothing. -/
theorem Memory.read_writeBlock_outside {bs : List Byte} {m : List Host.Cell} {a b : Nat} (hm : Memory.wf d m = true)
    (hb : ∀ k < bs.length, b ≠ (a + k) % memSize) : Memory.read d (Memory.writeBlock d m a bs) b = Memory.read d m b := by
  induction bs generalizing m a with
  | nil => rfl
  | cons v vs ih =>
    have h0 : b ≠ a % memSize := by simpa using hb 0 (by simp)
    have hs : ∀ k < vs.length, b ≠ (a + 1 + k) % memSize := fun k hk => by
      have := hb (k + 1) (by simpa using hk)
      rwa [show a + (k + 1) = a + 1 + k by omega] at this
    rw [Memory.writeBlock, ih (Memory.wf_write hm (Nat.mod_lt _ (by decide))) hs, Memory.read_write hm, if_neg h0]

/-- The `k`-th stored byte of a block that does not wrap onto itself. -/
theorem Memory.read_writeBlock_inside {bs : List Byte} {m : List Host.Cell} {a k : Nat} (hm : Memory.wf d m = true)
    (hl : bs.length ≤ memSize) (hk : k < bs.length) :
    Memory.read d (Memory.writeBlock d m a bs) ((a + k) % memSize) = bs[k] := by
  induction bs generalizing m a k with
  | nil => simp at hk
  | cons v vs ih =>
    have hm' := Memory.wf_write (d := d) (v := v) hm (Nat.mod_lt a (show 0 < memSize by decide))
    simp only [List.length_cons, memSize] at hl hk
    cases k with
    | zero =>
      rw [Memory.writeBlock, Memory.read_writeBlock_outside hm' (fun j hj => by
        simp only [memSize, Nat.add_zero]; omega), Memory.read_write hm]
      simp
    | succ k =>
      rw [show a + (k + 1) = a + 1 + k by omega, Memory.writeBlock]
      simpa using ih hm' (by simp only [memSize]; omega) (by omega)

theorem Memory.wf_nil : Memory.wf d [] = true := rfl

end Sys2Proof.Machine
end

