-- ==== Sys2Proof/Laws/State.lean ====
section
/-! SUPPORT. One lemma per field and update of `State`, each true by definition: no later proof unfolds a record update. -/

namespace Sys2Proof.Machine

variable (s : State)

/-! ### setV -/

@[simp] theorem State.setV_v (x : Nibble) (b : Byte) : (s.setV x b).v = s.v.set x.toNat b x.isLt := rfl
@[simp] theorem State.setV_i (x : Nibble) (b : Byte) : (s.setV x b).i = s.i := rfl
@[simp] theorem State.setV_pc (x : Nibble) (b : Byte) : (s.setV x b).pc = s.pc := rfl
@[simp] theorem State.setV_stack (x : Nibble) (b : Byte) : (s.setV x b).stack = s.stack := rfl
@[simp] theorem State.setV_sp (x : Nibble) (b : Byte) : (s.setV x b).sp = s.sp := rfl
@[simp] theorem State.setV_dt (x : Nibble) (b : Byte) : (s.setV x b).dt = s.dt := rfl
@[simp] theorem State.setV_st (x : Nibble) (b : Byte) : (s.setV x b).st = s.st := rfl
@[simp] theorem State.setV_fb (x : Nibble) (b : Byte) : (s.setV x b).fb = s.fb := rfl
@[simp] theorem State.setV_keys (x : Nibble) (b : Byte) : (s.setV x b).keys = s.keys := rfl
@[simp] theorem State.setV_mem (x : Nibble) (b : Byte) : (s.setV x b).mem = s.mem := rfl
@[simp] theorem State.setV_status (x : Nibble) (b : Byte) : (s.setV x b).status = s.status := rfl
@[simp] theorem State.setV_keyLatch (x : Nibble) (b : Byte) : (s.setV x b).keyLatch = s.keyLatch := rfl
@[simp] theorem State.setV_cycleCtr (x : Nibble) (b : Byte) : (s.setV x b).cycleCtr = s.cycleCtr := rfl
@[simp] theorem State.setV_drawCtr (x : Nibble) (b : Byte) : (s.setV x b).drawCtr = s.drawCtr := rfl
@[simp] theorem State.setV_report (x : Nibble) (b : Byte) : (s.setV x b).report = s.report := rfl
@[simp] theorem State.setV_cfg (x : Nibble) (b : Byte) : (s.setV x b).cfg = s.cfg := rfl
@[simp] theorem State.setV_memRead (x : Nibble) (b : Byte) (a' : Nat) : (s.setV x b).memRead a' = s.memRead a' := rfl
@[simp] theorem State.setV_fetchWord (x : Nibble) (b : Byte) : (s.setV x b).fetchWord = s.fetchWord := rfl
@[simp] theorem State.setV_key (x : Nibble) (b : Byte) (k' : Nibble) : (s.setV x b).key k' = s.key k' := rfl
@[simp] theorem State.setV_ea (x : Nibble) (b : Byte) (k' : Nat) : (s.setV x b).ea k' = s.ea k' := rfl
@[simp] theorem State.setV_npc (x : Nibble) (b : Byte) : (s.setV x b).npc = s.npc := rfl

/-! ### setRegs -/

@[simp] theorem State.setRegs_v (v : Vector Byte 16) : (s.setRegs v).v = v := rfl
@[simp] theorem State.setRegs_i (v : Vector Byte 16) : (s.setRegs v).i = s.i := rfl
@[simp] theorem State.setRegs_pc (v : Vector Byte 16) : (s.setRegs v).pc = s.pc := rfl
@[simp] theorem State.setRegs_stack (v : Vector Byte 16) : (s.setRegs v).stack = s.stack := rfl
@[simp] theorem State.setRegs_sp (v : Vector Byte 16) : (s.setRegs v).sp = s.sp := rfl
@[simp] theorem State.setRegs_dt (v : Vector Byte 16) : (s.setRegs v).dt = s.dt := rfl
@[simp] theorem State.setRegs_st (v : Vector Byte 16) : (s.setRegs v).st = s.st := rfl
@[simp] theorem State.setRegs_fb (v : Vector Byte 16) : (s.setRegs v).fb = s.fb := rfl
@[simp] theorem State.setRegs_keys (v : Vector Byte 16) : (s.setRegs v).keys = s.keys := rfl
@[simp] theorem State.setRegs_mem (v : Vector Byte 16) : (s.setRegs v).mem = s.mem := rfl
@[simp] theorem State.setRegs_status (v : Vector Byte 16) : (s.setRegs v).status = s.status := rfl
@[simp] theorem State.setRegs_keyLatch (v : Vector Byte 16) : (s.setRegs v).keyLatch = s.keyLatch := rfl
@[simp] theorem State.setRegs_cycleCtr (v : Vector Byte 16) : (s.setRegs v).cycleCtr = s.cycleCtr := rfl
@[simp] theorem State.setRegs_drawCtr (v : Vector Byte 16) : (s.setRegs v).drawCtr = s.drawCtr := rfl
@[simp] theorem State.setRegs_report (v : Vector Byte 16) : (s.setRegs v).report = s.report := rfl
@[simp] theorem State.setRegs_cfg (v : Vector Byte 16) : (s.setRegs v).cfg = s.cfg := rfl
@[simp] theorem State.setRegs_memRead (v : Vector Byte 16) (a' : Nat) : (s.setRegs v).memRead a' = s.memRead a' := rfl
@[simp] theorem State.setRegs_fetchWord (v : Vector Byte 16) : (s.setRegs v).fetchWord = s.fetchWord := rfl
@[simp] theorem State.setRegs_key (v : Vector Byte 16) (k' : Nibble) : (s.setRegs v).key k' = s.key k' := rfl
@[simp] theorem State.setRegs_ea (v : Vector Byte 16) (k' : Nat) : (s.setRegs v).ea k' = s.ea k' := rfl
@[simp] theorem State.setRegs_npc (v : Vector Byte 16) : (s.setRegs v).npc = s.npc := rfl

/-! ### bumpIndex -/

@[simp] theorem State.bumpIndex_v (x : Nibble) : (s.bumpIndex x).v = s.v := rfl
@[simp] theorem State.bumpIndex_i (x : Nibble) : (s.bumpIndex x).i = s.indexAfterBlock x := rfl
@[simp] theorem State.bumpIndex_pc (x : Nibble) : (s.bumpIndex x).pc = s.pc := rfl
@[simp] theorem State.bumpIndex_stack (x : Nibble) : (s.bumpIndex x).stack = s.stack := rfl
@[simp] theorem State.bumpIndex_sp (x : Nibble) : (s.bumpIndex x).sp = s.sp := rfl
@[simp] theorem State.bumpIndex_dt (x : Nibble) : (s.bumpIndex x).dt = s.dt := rfl
@[simp] theorem State.bumpIndex_st (x : Nibble) : (s.bumpIndex x).st = s.st := rfl
@[simp] theorem State.bumpIndex_fb (x : Nibble) : (s.bumpIndex x).fb = s.fb := rfl
@[simp] theorem State.bumpIndex_keys (x : Nibble) : (s.bumpIndex x).keys = s.keys := rfl
@[simp] theorem State.bumpIndex_mem (x : Nibble) : (s.bumpIndex x).mem = s.mem := rfl
@[simp] theorem State.bumpIndex_status (x : Nibble) : (s.bumpIndex x).status = s.status := rfl
@[simp] theorem State.bumpIndex_keyLatch (x : Nibble) : (s.bumpIndex x).keyLatch = s.keyLatch := rfl
@[simp] theorem State.bumpIndex_cycleCtr (x : Nibble) : (s.bumpIndex x).cycleCtr = s.cycleCtr := rfl
@[simp] theorem State.bumpIndex_drawCtr (x : Nibble) : (s.bumpIndex x).drawCtr = s.drawCtr := rfl
@[simp] theorem State.bumpIndex_report (x : Nibble) : (s.bumpIndex x).report = s.report := rfl
@[simp] theorem State.bumpIndex_cfg (x : Nibble) : (s.bumpIndex x).cfg = s.cfg := rfl
@[simp] theorem State.bumpIndex_getV (x : Nibble) (r : Nibble) : (s.bumpIndex x).getV r = s.getV r := rfl
@[simp] theorem State.bumpIndex_memRead (x : Nibble) (a' : Nat) : (s.bumpIndex x).memRead a' = s.memRead a' := rfl
@[simp] theorem State.bumpIndex_fetchWord (x : Nibble) : (s.bumpIndex x).fetchWord = s.fetchWord := rfl
@[simp] theorem State.bumpIndex_key (x : Nibble) (k' : Nibble) : (s.bumpIndex x).key k' = s.key k' := rfl
@[simp] theorem State.bumpIndex_npc (x : Nibble) : (s.bumpIndex x).npc = s.npc := rfl

/-! ### setFlagged -/

@[simp] theorem State.setFlagged_v (x : Nibble) (b f : Byte) : (s.setFlagged x b f).v = ((s.setV x b).setV 15 f).v := rfl
@[simp] theorem State.setFlagged_i (x : Nibble) (b f : Byte) : (s.setFlagged x b f).i = s.i := rfl
@[simp] theorem State.setFlagged_pc (x : Nibble) (b f : Byte) : (s.setFlagged x b f).pc = s.pc := rfl
@[simp] theorem State.setFlagged_stack (x : Nibble) (b f : Byte) : (s.setFlagged x b f).stack = s.stack := rfl
@[simp] theorem State.setFlagged_sp (x : Nibble) (b f : Byte) : (s.setFlagged x b f).sp = s.sp := rfl
@[simp] theorem State.setFlagged_dt (x : Nibble) (b f : Byte) : (s.setFlagged x b f).dt = s.dt := rfl
@[simp] theorem State.setFlagged_st (x : Nibble) (b f : Byte) : (s.setFlagged x b f).st = s.st := rfl
@[simp] theorem State.setFlagged_fb (x : Nibble) (b f : Byte) : (s.setFlagged x b f).fb = s.fb := rfl
@[simp] theorem State.setFlagged_keys (x : Nibble) (b f : Byte) : (s.setFlagged x b f).keys = s.keys := rfl
@[simp] theorem State.setFlagged_mem (x : Nibble) (b f : Byte) : (s.setFlagged x b f).mem = s.mem := rfl
@[simp] theorem State.setFlagged_status (x : Nibble) (b f : Byte) : (s.setFlagged x b f).status = s.status := rfl
@[simp] theorem State.setFlagged_keyLatch (x : Nibble) (b f : Byte) : (s.setFlagged x b f).keyLatch = s.keyLatch := rfl
@[simp] theorem State.setFlagged_cycleCtr (x : Nibble) (b f : Byte) : (s.setFlagged x b f).cycleCtr = s.cycleCtr := rfl
@[simp] theorem State.setFlagged_drawCtr (x : Nibble) (b f : Byte) : (s.setFlagged x b f).drawCtr = s.drawCtr := rfl
@[simp] theorem State.setFlagged_report (x : Nibble) (b f : Byte) : (s.setFlagged x b f).report = s.report := rfl
@[simp] theorem State.setFlagged_cfg (x : Nibble) (b f : Byte) : (s.setFlagged x b f).cfg = s.cfg := rfl
@[simp] theorem State.setFlagged_memRead (x : Nibble) (b f : Byte) (a' : Nat) : (s.setFlagged x b f).memRead a' = s.memRead a' := rfl
@[simp] theorem State.setFlagged_fetchWord (x : Nibble) (b f : Byte) : (s.setFlagged x b f).fetchWord = s.fetchWord := rfl
@[simp] theorem State.setFlagged_key (x : Nibble) (b f : Byte) (k' : Nibble) : (s.setFlagged x b f).key k' = s.key k' := rfl
@[simp] theorem State.setFlagged_ea (x : Nibble) (b f : Byte) (k' : Nat) : (s.setFlagged x b f).ea k' = s.ea k' := rfl
@[simp] theorem State.setFlagged_npc (x : Nibble) (b f : Byte) : (s.setFlagged x b f).npc = s.npc := rfl

/-! ### setI -/

@[simp] theorem State.setI_v (w : Word) : (s.setI w).v = s.v := rfl
@[simp] theorem State.setI_i (w : Word) : (s.setI w).i = wrap12 w := rfl
@[simp] theorem State.setI_pc (w : Word) : (s.setI w).pc = s.pc := rfl
@[simp] theorem State.setI_stack (w : Word) : (s.setI w).stack = s.stack := rfl
@[simp] theorem State.setI_sp (w : Word) : (s.setI w).sp = s.sp := rfl
@[simp] theorem State.setI_dt (w : Word) : (s.setI w).dt = s.dt := rfl
@[simp] theorem State.setI_st (w : Word) : (s.setI w).st = s.st := rfl
@[simp] theorem State.setI_fb (w : Word) : (s.setI w).fb = s.fb := rfl
@[simp] theorem State.setI_keys (w : Word) : (s.setI w).keys = s.keys := rfl
@[simp] theorem State.setI_mem (w : Word) : (s.setI w).mem = s.mem := rfl
@[simp] theorem State.setI_status (w : Word) : (s.setI w).status = s.status := rfl
@[simp] theorem State.setI_keyLatch (w : Word) : (s.setI w).keyLatch = s.keyLatch := rfl
@[simp] theorem State.setI_cycleCtr (w : Word) : (s.setI w).cycleCtr = s.cycleCtr := rfl
@[simp] theorem State.setI_drawCtr (w : Word) : (s.setI w).drawCtr = s.drawCtr := rfl
@[simp] theorem State.setI_report (w : Word) : (s.setI w).report = s.report := rfl
@[simp] theorem State.setI_cfg (w : Word) : (s.setI w).cfg = s.cfg := rfl
@[simp] theorem State.setI_getV (w : Word) (r : Nibble) : (s.setI w).getV r = s.getV r := rfl
@[simp] theorem State.setI_memRead (w : Word) (a' : Nat) : (s.setI w).memRead a' = s.memRead a' := rfl
@[simp] theorem State.setI_fetchWord (w : Word) : (s.setI w).fetchWord = s.fetchWord := rfl
@[simp] theorem State.setI_key (w : Word) (k' : Nibble) : (s.setI w).key k' = s.key k' := rfl
@[simp] theorem State.setI_npc (w : Word) : (s.setI w).npc = s.npc := rfl

/-! ### setPc -/

@[simp] theorem State.setPc_v (w : Word) : (s.setPc w).v = s.v := rfl
@[simp] theorem State.setPc_i (w : Word) : (s.setPc w).i = s.i := rfl
@[simp] theorem State.setPc_pc (w : Word) : (s.setPc w).pc = wrap12 w := rfl
@[simp] theorem State.setPc_stack (w : Word) : (s.setPc w).stack = s.stack := rfl
@[simp] theorem State.setPc_sp (w : Word) : (s.setPc w).sp = s.sp := rfl
@[simp] theorem State.setPc_dt (w : Word) : (s.setPc w).dt = s.dt := rfl
@[simp] theorem State.setPc_st (w : Word) : (s.setPc w).st = s.st := rfl
@[simp] theorem State.setPc_fb (w : Word) : (s.setPc w).fb = s.fb := rfl
@[simp] theorem State.setPc_keys (w : Word) : (s.setPc w).keys = s.keys := rfl
@[simp] theorem State.setPc_mem (w : Word) : (s.setPc w).mem = s.mem := rfl
@[simp] theorem State.setPc_status (w : Word) : (s.setPc w).status = s.status := rfl
@[simp] theorem State.setPc_keyLatch (w : Word) : (s.setPc w).keyLatch = s.keyLatch := rfl
@[simp] theorem State.setPc_cycleCtr (w : Word) : (s.setPc w).cycleCtr = s.cycleCtr := rfl
@[simp] theorem State.setPc_drawCtr (w : Word) : (s.setPc w).drawCtr = s.drawCtr := rfl
@[simp] theorem State.setPc_report (w : Word) : (s.setPc w).report = s.report := rfl
@[simp] theorem State.setPc_cfg (w : Word) : (s.setPc w).cfg = s.cfg := rfl
@[simp] theorem State.setPc_getV (w : Word) (r : Nibble) : (s.setPc w).getV r = s.getV r := rfl
@[simp] theorem State.setPc_memRead (w : Word) (a' : Nat) : (s.setPc w).memRead a' = s.memRead a' := rfl
@[simp] theorem State.setPc_key (w : Word) (k' : Nibble) : (s.setPc w).key k' = s.key k' := rfl
@[simp] theorem State.setPc_ea (w : Word) (k' : Nat) : (s.setPc w).ea k' = s.ea k' := rfl

/-! ### advance -/

@[simp] theorem State.advance_v : (s.advance).v = s.v := rfl
@[simp] theorem State.advance_i : (s.advance).i = s.i := rfl
@[simp] theorem State.advance_pc : (s.advance).pc = wrap12 s.npc := rfl
@[simp] theorem State.advance_stack : (s.advance).stack = s.stack := rfl
@[simp] theorem State.advance_sp : (s.advance).sp = s.sp := rfl
@[simp] theorem State.advance_dt : (s.advance).dt = s.dt := rfl
@[simp] theorem State.advance_st : (s.advance).st = s.st := rfl
@[simp] theorem State.advance_fb : (s.advance).fb = s.fb := rfl
@[simp] theorem State.advance_keys : (s.advance).keys = s.keys := rfl
@[simp] theorem State.advance_mem : (s.advance).mem = s.mem := rfl
@[simp] theorem State.advance_status : (s.advance).status = s.status := rfl
@[simp] theorem State.advance_keyLatch : (s.advance).keyLatch = s.keyLatch := rfl
@[simp] theorem State.advance_cycleCtr : (s.advance).cycleCtr = s.cycleCtr := rfl
@[simp] theorem State.advance_drawCtr : (s.advance).drawCtr = s.drawCtr := rfl
@[simp] theorem State.advance_report : (s.advance).report = s.report := rfl
@[simp] theorem State.advance_cfg : (s.advance).cfg = s.cfg := rfl
@[simp] theorem State.advance_getV (r : Nibble) : (s.advance).getV r = s.getV r := rfl
@[simp] theorem State.advance_memRead (a' : Nat) : (s.advance).memRead a' = s.memRead a' := rfl
@[simp] theorem State.advance_key (k' : Nibble) : (s.advance).key k' = s.key k' := rfl
@[simp] theorem State.advance_ea (k' : Nat) : (s.advance).ea k' = s.ea k' := rfl

/-! ### skipIf -/

@[simp] theorem State.skipIf_v (c : Bool) : (s.skipIf c).v = s.v := rfl
@[simp] theorem State.skipIf_i (c : Bool) : (s.skipIf c).i = s.i := rfl
@[simp] theorem State.skipIf_pc (c : Bool) : (s.skipIf c).pc = wrap12 (if c then s.npc + 2#16 else s.npc) := rfl
@[simp] theorem State.skipIf_stack (c : Bool) : (s.skipIf c).stack = s.stack := rfl
@[simp] theorem State.skipIf_sp (c : Bool) : (s.skipIf c).sp = s.sp := rfl
@[simp] theorem State.skipIf_dt (c : Bool) : (s.skipIf c).dt = s.dt := rfl
@[simp] theorem State.skipIf_st (c : Bool) : (s.skipIf c).st = s.st := rfl
@[simp] theorem State.skipIf_fb (c : Bool) : (s.skipIf c).fb = s.fb := rfl
@[simp] theorem State.skipIf_keys (c : Bool) : (s.skipIf c).keys = s.keys := rfl
@[simp] theorem State.skipIf_mem (c : Bool) : (s.skipIf c).mem = s.mem := rfl
@[simp] theorem State.skipIf_status (c : Bool) : (s.skipIf c).status = s.status := rfl
@[simp] theorem State.skipIf_keyLatch (c : Bool) : (s.skipIf c).keyLatch = s.keyLatch := rfl
@[simp] theorem State.skipIf_cycleCtr (c : Bool) : (s.skipIf c).cycleCtr = s.cycleCtr := rfl
@[simp] theorem State.skipIf_drawCtr (c : Bool) : (s.skipIf c).drawCtr = s.drawCtr := rfl
@[simp] theorem State.skipIf_report (c : Bool) : (s.skipIf c).report = s.report := rfl
@[simp] theorem State.skipIf_cfg (c : Bool) : (s.skipIf c).cfg = s.cfg := rfl
@[simp] theorem State.skipIf_getV (c : Bool) (r : Nibble) : (s.skipIf c).getV r = s.getV r := rfl
@[simp] theorem State.skipIf_memRead (c : Bool) (a' : Nat) : (s.skipIf c).memRead a' = s.memRead a' := rfl
@[simp] theorem State.skipIf_key (c : Bool) (k' : Nibble) : (s.skipIf c).key k' = s.key k' := rfl
@[simp] theorem State.skipIf_ea (c : Bool) (k' : Nat) : (s.skipIf c).ea k' = s.ea k' := rfl

/-! ### storeBlock -/

@[simp] theorem State.storeBlock_v (a : Nat) (bs : List Byte) : (s.storeBlock a bs).v = s.v := rfl
@[simp] theorem State.storeBlock_i (a : Nat) (bs : List Byte) : (s.storeBlock a bs).i = s.i := rfl
@[simp] theorem State.storeBlock_pc (a : Nat) (bs : List Byte) : (s.storeBlock a bs).pc = s.pc := rfl
@[simp] theorem State.storeBlock_stack (a : Nat) (bs : List Byte) : (s.storeBlock a bs).stack = s.stack := rfl
@[simp] theorem State.storeBlock_sp (a : Nat) (bs : List Byte) : (s.storeBlock a bs).sp = s.sp := rfl
@[simp] theorem State.storeBlock_dt (a : Nat) (bs : List Byte) : (s.storeBlock a bs).dt = s.dt := rfl
@[simp] theorem State.storeBlock_st (a : Nat) (bs : List Byte) : (s.storeBlock a bs).st = s.st := rfl
@[simp] theorem State.storeBlock_fb (a : Nat) (bs : List Byte) : (s.storeBlock a bs).fb = s.fb := rfl
@[simp] theorem State.storeBlock_keys (a : Nat) (bs : List Byte) : (s.storeBlock a bs).keys = s.keys := rfl
@[simp] theorem State.storeBlock_mem (a : Nat) (bs : List Byte) : (s.storeBlock a bs).mem = Memory.writeBlock (Memory.resetByte s.cfg) s.mem a bs := rfl
@[simp] theorem State.storeBlock_status (a : Nat) (bs : List Byte) : (s.storeBlock a bs).status = s.status := rfl
@[simp] theorem State.storeBlock_keyLatch (a : Nat) (bs : List Byte) : (s.storeBlock a bs).keyLatch = s.keyLatch := rfl
@[simp] theorem State.storeBlock_cycleCtr (a : Nat) (bs : List Byte) : (s.storeBlock a bs).cycleCtr = s.cycleCtr := rfl
@[simp] theorem State.storeBlock_drawCtr (a : Nat) (bs : List Byte) : (s.storeBlock a bs).drawCtr = s.drawCtr := rfl
@[simp] theorem State.storeBlock_report (a : Nat) (bs : List Byte) : (s.storeBlock a bs).report = s.report := rfl
@[simp] theorem State.storeBlock_cfg (a : Nat) (bs : List Byte) : (s.storeBlock a bs).cfg = s.cfg := rfl
@[simp] theorem State.storeBlock_getV (a : Nat) (bs : List Byte) (r : Nibble) : (s.storeBlock a bs).getV r = s.getV r := rfl
@[simp] theorem State.storeBlock_key (a : Nat) (bs : List Byte) (k' : Nibble) : (s.storeBlock a bs).key k' = s.key k' := rfl
@[simp] theorem State.storeBlock_ea (a : Nat) (bs : List Byte) (k' : Nat) : (s.storeBlock a bs).ea k' = s.ea k' := rfl
@[simp] theorem State.storeBlock_npc (a : Nat) (bs : List Byte) : (s.storeBlock a bs).npc = s.npc := rfl

/-! ### setDt -/

@[simp] theorem State.setDt_v (b : Byte) : (s.setDt b).v = s.v := rfl
@[simp] theorem State.setDt_i (b : Byte) : (s.setDt b).i = s.i := rfl
@[simp] theorem State.setDt_pc (b : Byte) : (s.setDt b).pc = s.pc := rfl
@[simp] theorem State.setDt_stack (b : Byte) : (s.setDt b).stack = s.stack := rfl
@[simp] theorem State.setDt_sp (b : Byte) : (s.setDt b).sp = s.sp := rfl
@[simp] theorem State.setDt_dt (b : Byte) : (s.setDt b).dt = b := rfl
@[simp] theorem State.setDt_st (b : Byte) : (s.setDt b).st = s.st := rfl
@[simp] theorem State.setDt_fb (b : Byte) : (s.setDt b).fb = s.fb := rfl
@[simp] theorem State.setDt_keys (b : Byte) : (s.setDt b).keys = s.keys := rfl
@[simp] theorem State.setDt_mem (b : Byte) : (s.setDt b).mem = s.mem := rfl
@[simp] theorem State.setDt_status (b : Byte) : (s.setDt b).status = s.status := rfl
@[simp] theorem State.setDt_keyLatch (b : Byte) : (s.setDt b).keyLatch = s.keyLatch := rfl
@[simp] theorem State.setDt_cycleCtr (b : Byte) : (s.setDt b).cycleCtr = s.cycleCtr := rfl
@[simp] theorem State.setDt_drawCtr (b : Byte) : (s.setDt b).drawCtr = s.drawCtr := rfl
@[simp] theorem State.setDt_report (b : Byte) : (s.setDt b).report = s.report := rfl
@[simp] theorem State.setDt_cfg (b : Byte) : (s.setDt b).cfg = s.cfg := rfl
@[simp] theorem State.setDt_getV (b : Byte) (r : Nibble) : (s.setDt b).getV r = s.getV r := rfl
@[simp] theorem State.setDt_memRead (b : Byte) (a' : Nat) : (s.setDt b).memRead a' = s.memRead a' := rfl
@[simp] theorem State.setDt_fetchWord (b : Byte) : (s.setDt b).fetchWord = s.fetchWord := rfl
@[simp] theorem State.setDt_key (b : Byte) (k' : Nibble) : (s.setDt b).key k' = s.key k' := rfl
@[simp] theorem State.setDt_ea (b : Byte) (k' : Nat) : (s.setDt b).ea k' = s.ea k' := rfl
@[simp] theorem State.setDt_npc (b : Byte) : (s.setDt b).npc = s.npc := rfl

/-! ### setSt -/

@[simp] theorem State.setSt_v (b : Byte) : (s.setSt b).v = s.v := rfl
@[simp] theorem State.setSt_i (b : Byte) : (s.setSt b).i = s.i := rfl
@[simp] theorem State.setSt_pc (b : Byte) : (s.setSt b).pc = s.pc := rfl
@[simp] theorem State.setSt_stack (b : Byte) : (s.setSt b).stack = s.stack := rfl
@[simp] theorem State.setSt_sp (b : Byte) : (s.setSt b).sp = s.sp := rfl
@[simp] theorem State.setSt_dt (b : Byte) : (s.setSt b).dt = s.dt := rfl
@[simp] theorem State.setSt_st (b : Byte) : (s.setSt b).st = b := rfl
@[simp] theorem State.setSt_fb (b : Byte) : (s.setSt b).fb = s.fb := rfl
@[simp] theorem State.setSt_keys (b : Byte) : (s.setSt b).keys = s.keys := rfl
@[simp] theorem State.setSt_mem (b : Byte) : (s.setSt b).mem = s.mem := rfl
@[simp] theorem State.setSt_status (b : Byte) : (s.setSt b).status = s.status := rfl
@[simp] theorem State.setSt_keyLatch (b : Byte) : (s.setSt b).keyLatch = s.keyLatch := rfl
@[simp] theorem State.setSt_cycleCtr (b : Byte) : (s.setSt b).cycleCtr = s.cycleCtr := rfl
@[simp] theorem State.setSt_drawCtr (b : Byte) : (s.setSt b).drawCtr = s.drawCtr := rfl
@[simp] theorem State.setSt_report (b : Byte) : (s.setSt b).report = s.report := rfl
@[simp] theorem State.setSt_cfg (b : Byte) : (s.setSt b).cfg = s.cfg := rfl
@[simp] theorem State.setSt_getV (b : Byte) (r : Nibble) : (s.setSt b).getV r = s.getV r := rfl
@[simp] theorem State.setSt_memRead (b : Byte) (a' : Nat) : (s.setSt b).memRead a' = s.memRead a' := rfl
@[simp] theorem State.setSt_fetchWord (b : Byte) : (s.setSt b).fetchWord = s.fetchWord := rfl
@[simp] theorem State.setSt_key (b : Byte) (k' : Nibble) : (s.setSt b).key k' = s.key k' := rfl
@[simp] theorem State.setSt_ea (b : Byte) (k' : Nat) : (s.setSt b).ea k' = s.ea k' := rfl
@[simp] theorem State.setSt_npc (b : Byte) : (s.setSt b).npc = s.npc := rfl

/-! ### setFb -/

@[simp] theorem State.setFb_v (fb : Framebuffer) : (s.setFb fb).v = s.v := rfl
@[simp] theorem State.setFb_i (fb : Framebuffer) : (s.setFb fb).i = s.i := rfl
@[simp] theorem State.setFb_pc (fb : Framebuffer) : (s.setFb fb).pc = s.pc := rfl
@[simp] theorem State.setFb_stack (fb : Framebuffer) : (s.setFb fb).stack = s.stack := rfl
@[simp] theorem State.setFb_sp (fb : Framebuffer) : (s.setFb fb).sp = s.sp := rfl
@[simp] theorem State.setFb_dt (fb : Framebuffer) : (s.setFb fb).dt = s.dt := rfl
@[simp] theorem State.setFb_st (fb : Framebuffer) : (s.setFb fb).st = s.st := rfl
@[simp] theorem State.setFb_fb (fb : Framebuffer) : (s.setFb fb).fb = fb := rfl
@[simp] theorem State.setFb_keys (fb : Framebuffer) : (s.setFb fb).keys = s.keys := rfl
@[simp] theorem State.setFb_mem (fb : Framebuffer) : (s.setFb fb).mem = s.mem := rfl
@[simp] theorem State.setFb_status (fb : Framebuffer) : (s.setFb fb).status = s.status := rfl
@[simp] theorem State.setFb_keyLatch (fb : Framebuffer) : (s.setFb fb).keyLatch = s.keyLatch := rfl
@[simp] theorem State.setFb_cycleCtr (fb : Framebuffer) : (s.setFb fb).cycleCtr = s.cycleCtr := rfl
@[simp] theorem State.setFb_drawCtr (fb : Framebuffer) : (s.setFb fb).drawCtr = s.drawCtr := rfl
@[simp] theorem State.setFb_report (fb : Framebuffer) : (s.setFb fb).report = s.report := rfl
@[simp] theorem State.setFb_cfg (fb : Framebuffer) : (s.setFb fb).cfg = s.cfg := rfl
@[simp] theorem State.setFb_getV (fb : Framebuffer) (r : Nibble) : (s.setFb fb).getV r = s.getV r := rfl
@[simp] theorem State.setFb_memRead (fb : Framebuffer) (a' : Nat) : (s.setFb fb).memRead a' = s.memRead a' := rfl
@[simp] theorem State.setFb_fetchWord (fb : Framebuffer) : (s.setFb fb).fetchWord = s.fetchWord := rfl
@[simp] theorem State.setFb_key (fb : Framebuffer) (k' : Nibble) : (s.setFb fb).key k' = s.key k' := rfl
@[simp] theorem State.setFb_ea (fb : Framebuffer) (k' : Nat) : (s.setFb fb).ea k' = s.ea k' := rfl
@[simp] theorem State.setFb_npc (fb : Framebuffer) : (s.setFb fb).npc = s.npc := rfl

/-! ### consumeDraw -/

@[simp] theorem State.consumeDraw_v : (s.consumeDraw).v = s.v := rfl
@[simp] theorem State.consumeDraw_i : (s.consumeDraw).i = s.i := rfl
@[simp] theorem State.consumeDraw_pc : (s.consumeDraw).pc = s.pc := rfl
@[simp] theorem State.consumeDraw_stack : (s.consumeDraw).stack = s.stack := rfl
@[simp] theorem State.consumeDraw_sp : (s.consumeDraw).sp = s.sp := rfl
@[simp] theorem State.consumeDraw_dt : (s.consumeDraw).dt = s.dt := rfl
@[simp] theorem State.consumeDraw_st : (s.consumeDraw).st = s.st := rfl
@[simp] theorem State.consumeDraw_fb : (s.consumeDraw).fb = s.fb := rfl
@[simp] theorem State.consumeDraw_keys : (s.consumeDraw).keys = s.keys := rfl
@[simp] theorem State.consumeDraw_mem : (s.consumeDraw).mem = s.mem := rfl
@[simp] theorem State.consumeDraw_status : (s.consumeDraw).status = s.status := rfl
@[simp] theorem State.consumeDraw_keyLatch : (s.consumeDraw).keyLatch = s.keyLatch := rfl
@[simp] theorem State.consumeDraw_cycleCtr : (s.consumeDraw).cycleCtr = s.cycleCtr := rfl
@[simp] theorem State.consumeDraw_drawCtr : (s.consumeDraw).drawCtr = s.drawCtr + 1 := rfl
@[simp] theorem State.consumeDraw_report : (s.consumeDraw).report = s.report := rfl
@[simp] theorem State.consumeDraw_cfg : (s.consumeDraw).cfg = s.cfg := rfl
@[simp] theorem State.consumeDraw_getV (r : Nibble) : (s.consumeDraw).getV r = s.getV r := rfl
@[simp] theorem State.consumeDraw_memRead (a' : Nat) : (s.consumeDraw).memRead a' = s.memRead a' := rfl
@[simp] theorem State.consumeDraw_fetchWord : (s.consumeDraw).fetchWord = s.fetchWord := rfl
@[simp] theorem State.consumeDraw_key (k' : Nibble) : (s.consumeDraw).key k' = s.key k' := rfl
@[simp] theorem State.consumeDraw_ea (k' : Nat) : (s.consumeDraw).ea k' = s.ea k' := rfl
@[simp] theorem State.consumeDraw_npc : (s.consumeDraw).npc = s.npc := rfl

/-! ### takeFault -/

@[simp] theorem State.takeFault_v (c : FaultCause) : (s.takeFault c).v = s.v := rfl
@[simp] theorem State.takeFault_i (c : FaultCause) : (s.takeFault c).i = s.i := rfl
@[simp] theorem State.takeFault_pc (c : FaultCause) : (s.takeFault c).pc = s.pc := rfl
@[simp] theorem State.takeFault_stack (c : FaultCause) : (s.takeFault c).stack = s.stack := rfl
@[simp] theorem State.takeFault_sp (c : FaultCause) : (s.takeFault c).sp = s.sp := rfl
@[simp] theorem State.takeFault_dt (c : FaultCause) : (s.takeFault c).dt = s.dt := rfl
@[simp] theorem State.takeFault_st (c : FaultCause) : (s.takeFault c).st = s.st := rfl
@[simp] theorem State.takeFault_fb (c : FaultCause) : (s.takeFault c).fb = s.fb := rfl
@[simp] theorem State.takeFault_keys (c : FaultCause) : (s.takeFault c).keys = s.keys := rfl
@[simp] theorem State.takeFault_mem (c : FaultCause) : (s.takeFault c).mem = s.mem := rfl
@[simp] theorem State.takeFault_status (c : FaultCause) : (s.takeFault c).status = .faulted c := rfl
@[simp] theorem State.takeFault_keyLatch (c : FaultCause) : (s.takeFault c).keyLatch = s.keyLatch := rfl
@[simp] theorem State.takeFault_cycleCtr (c : FaultCause) : (s.takeFault c).cycleCtr = s.cycleCtr := rfl
@[simp] theorem State.takeFault_drawCtr (c : FaultCause) : (s.takeFault c).drawCtr = s.drawCtr := rfl
@[simp] theorem State.takeFault_report (c : FaultCause) : (s.takeFault c).report = s.report := rfl
@[simp] theorem State.takeFault_cfg (c : FaultCause) : (s.takeFault c).cfg = s.cfg := rfl
@[simp] theorem State.takeFault_getV (c : FaultCause) (r : Nibble) : (s.takeFault c).getV r = s.getV r := rfl
@[simp] theorem State.takeFault_memRead (c : FaultCause) (a' : Nat) : (s.takeFault c).memRead a' = s.memRead a' := rfl
@[simp] theorem State.takeFault_fetchWord (c : FaultCause) : (s.takeFault c).fetchWord = s.fetchWord := rfl
@[simp] theorem State.takeFault_key (c : FaultCause) (k' : Nibble) : (s.takeFault c).key k' = s.key k' := rfl
@[simp] theorem State.takeFault_ea (c : FaultCause) (k' : Nat) : (s.takeFault c).ea k' = s.ea k' := rfl
@[simp] theorem State.takeFault_npc (c : FaultCause) : (s.takeFault c).npc = s.npc := rfl

/-! ### startWait -/

@[simp] theorem State.startWait_v (x : Nibble) : (s.startWait x).v = s.v := rfl
@[simp] theorem State.startWait_i (x : Nibble) : (s.startWait x).i = s.i := rfl
@[simp] theorem State.startWait_pc (x : Nibble) : (s.startWait x).pc = s.pc := rfl
@[simp] theorem State.startWait_stack (x : Nibble) : (s.startWait x).stack = s.stack := rfl
@[simp] theorem State.startWait_sp (x : Nibble) : (s.startWait x).sp = s.sp := rfl
@[simp] theorem State.startWait_dt (x : Nibble) : (s.startWait x).dt = s.dt := rfl
@[simp] theorem State.startWait_st (x : Nibble) : (s.startWait x).st = s.st := rfl
@[simp] theorem State.startWait_fb (x : Nibble) : (s.startWait x).fb = s.fb := rfl
@[simp] theorem State.startWait_keys (x : Nibble) : (s.startWait x).keys = s.keys := rfl
@[simp] theorem State.startWait_mem (x : Nibble) : (s.startWait x).mem = s.mem := rfl
@[simp] theorem State.startWait_status (x : Nibble) : (s.startWait x).status = .awaitingKey x := rfl
@[simp] theorem State.startWait_keyLatch (x : Nibble) : (s.startWait x).keyLatch = none := rfl
@[simp] theorem State.startWait_cycleCtr (x : Nibble) : (s.startWait x).cycleCtr = s.cycleCtr := rfl
@[simp] theorem State.startWait_drawCtr (x : Nibble) : (s.startWait x).drawCtr = s.drawCtr := rfl
@[simp] theorem State.startWait_report (x : Nibble) : (s.startWait x).report = s.report := rfl
@[simp] theorem State.startWait_cfg (x : Nibble) : (s.startWait x).cfg = s.cfg := rfl
@[simp] theorem State.startWait_getV (x : Nibble) (r : Nibble) : (s.startWait x).getV r = s.getV r := rfl
@[simp] theorem State.startWait_memRead (x : Nibble) (a' : Nat) : (s.startWait x).memRead a' = s.memRead a' := rfl
@[simp] theorem State.startWait_fetchWord (x : Nibble) : (s.startWait x).fetchWord = s.fetchWord := rfl
@[simp] theorem State.startWait_key (x : Nibble) (k' : Nibble) : (s.startWait x).key k' = s.key k' := rfl
@[simp] theorem State.startWait_ea (x : Nibble) (k' : Nat) : (s.startWait x).ea k' = s.ea k' := rfl
@[simp] theorem State.startWait_npc (x : Nibble) : (s.startWait x).npc = s.npc := rfl

/-! ### timerTick -/

@[simp] theorem State.timerTick_v : (s.timerTick).v = s.v := rfl
@[simp] theorem State.timerTick_i : (s.timerTick).i = s.i := rfl
@[simp] theorem State.timerTick_pc : (s.timerTick).pc = s.pc := rfl
@[simp] theorem State.timerTick_stack : (s.timerTick).stack = s.stack := rfl
@[simp] theorem State.timerTick_sp : (s.timerTick).sp = s.sp := rfl
@[simp] theorem State.timerTick_dt : (s.timerTick).dt = countDown s.dt := rfl
@[simp] theorem State.timerTick_st : (s.timerTick).st = countDown s.st := rfl
@[simp] theorem State.timerTick_fb : (s.timerTick).fb = s.fb := rfl
@[simp] theorem State.timerTick_keys : (s.timerTick).keys = s.keys := rfl
@[simp] theorem State.timerTick_mem : (s.timerTick).mem = s.mem := rfl
@[simp] theorem State.timerTick_status : (s.timerTick).status = s.status := rfl
@[simp] theorem State.timerTick_keyLatch : (s.timerTick).keyLatch = s.keyLatch := rfl
@[simp] theorem State.timerTick_cycleCtr : (s.timerTick).cycleCtr = s.cycleCtr := rfl
@[simp] theorem State.timerTick_drawCtr : (s.timerTick).drawCtr = s.drawCtr := rfl
@[simp] theorem State.timerTick_report : (s.timerTick).report = some { fb := s.fb, soundActive := countDown s.st ≠ 0 } := rfl
@[simp] theorem State.timerTick_cfg : (s.timerTick).cfg = s.cfg := rfl
@[simp] theorem State.timerTick_getV (r : Nibble) : (s.timerTick).getV r = s.getV r := rfl
@[simp] theorem State.timerTick_memRead (a' : Nat) : (s.timerTick).memRead a' = s.memRead a' := rfl
@[simp] theorem State.timerTick_fetchWord : (s.timerTick).fetchWord = s.fetchWord := rfl
@[simp] theorem State.timerTick_key (k' : Nibble) : (s.timerTick).key k' = s.key k' := rfl
@[simp] theorem State.timerTick_ea (k' : Nat) : (s.timerTick).ea k' = s.ea k' := rfl
@[simp] theorem State.timerTick_npc : (s.timerTick).npc = s.npc := rfl

/-! ### resetCycleCtr -/

@[simp] theorem State.resetCycleCtr_v : (s.resetCycleCtr).v = s.v := rfl
@[simp] theorem State.resetCycleCtr_i : (s.resetCycleCtr).i = s.i := rfl
@[simp] theorem State.resetCycleCtr_pc : (s.resetCycleCtr).pc = s.pc := rfl
@[simp] theorem State.resetCycleCtr_stack : (s.resetCycleCtr).stack = s.stack := rfl
@[simp] theorem State.resetCycleCtr_sp : (s.resetCycleCtr).sp = s.sp := rfl
@[simp] theorem State.resetCycleCtr_dt : (s.resetCycleCtr).dt = s.dt := rfl
@[simp] theorem State.resetCycleCtr_st : (s.resetCycleCtr).st = s.st := rfl
@[simp] theorem State.resetCycleCtr_fb : (s.resetCycleCtr).fb = s.fb := rfl
@[simp] theorem State.resetCycleCtr_keys : (s.resetCycleCtr).keys = s.keys := rfl
@[simp] theorem State.resetCycleCtr_mem : (s.resetCycleCtr).mem = s.mem := rfl
@[simp] theorem State.resetCycleCtr_status : (s.resetCycleCtr).status = s.status := rfl
@[simp] theorem State.resetCycleCtr_keyLatch : (s.resetCycleCtr).keyLatch = s.keyLatch := rfl
@[simp] theorem State.resetCycleCtr_cycleCtr : (s.resetCycleCtr).cycleCtr = 0 := rfl
@[simp] theorem State.resetCycleCtr_drawCtr : (s.resetCycleCtr).drawCtr = s.drawCtr := rfl
@[simp] theorem State.resetCycleCtr_report : (s.resetCycleCtr).report = s.report := rfl
@[simp] theorem State.resetCycleCtr_cfg : (s.resetCycleCtr).cfg = s.cfg := rfl
@[simp] theorem State.resetCycleCtr_getV (r : Nibble) : (s.resetCycleCtr).getV r = s.getV r := rfl
@[simp] theorem State.resetCycleCtr_memRead (a' : Nat) : (s.resetCycleCtr).memRead a' = s.memRead a' := rfl
@[simp] theorem State.resetCycleCtr_fetchWord : (s.resetCycleCtr).fetchWord = s.fetchWord := rfl
@[simp] theorem State.resetCycleCtr_key (k' : Nibble) : (s.resetCycleCtr).key k' = s.key k' := rfl
@[simp] theorem State.resetCycleCtr_ea (k' : Nat) : (s.resetCycleCtr).ea k' = s.ea k' := rfl
@[simp] theorem State.resetCycleCtr_npc : (s.resetCycleCtr).npc = s.npc := rfl

/-! ### keyUp -/

@[simp] theorem State.keyUp_v (k : Nibble) : (s.keyUp k).v = s.v := rfl
@[simp] theorem State.keyUp_i (k : Nibble) : (s.keyUp k).i = s.i := rfl
@[simp] theorem State.keyUp_pc (k : Nibble) : (s.keyUp k).pc = s.pc := rfl
@[simp] theorem State.keyUp_stack (k : Nibble) : (s.keyUp k).stack = s.stack := rfl
@[simp] theorem State.keyUp_sp (k : Nibble) : (s.keyUp k).sp = s.sp := rfl
@[simp] theorem State.keyUp_dt (k : Nibble) : (s.keyUp k).dt = s.dt := rfl
@[simp] theorem State.keyUp_st (k : Nibble) : (s.keyUp k).st = s.st := rfl
@[simp] theorem State.keyUp_fb (k : Nibble) : (s.keyUp k).fb = s.fb := rfl
@[simp] theorem State.keyUp_keys (k : Nibble) : (s.keyUp k).keys = s.keys.set k.toNat false k.isLt := rfl
@[simp] theorem State.keyUp_mem (k : Nibble) : (s.keyUp k).mem = s.mem := rfl
@[simp] theorem State.keyUp_status (k : Nibble) : (s.keyUp k).status = s.status := rfl
@[simp] theorem State.keyUp_keyLatch (k : Nibble) : (s.keyUp k).keyLatch = s.keyLatch := rfl
@[simp] theorem State.keyUp_cycleCtr (k : Nibble) : (s.keyUp k).cycleCtr = s.cycleCtr := rfl
@[simp] theorem State.keyUp_drawCtr (k : Nibble) : (s.keyUp k).drawCtr = s.drawCtr := rfl
@[simp] theorem State.keyUp_report (k : Nibble) : (s.keyUp k).report = s.report := rfl
@[simp] theorem State.keyUp_cfg (k : Nibble) : (s.keyUp k).cfg = s.cfg := rfl
@[simp] theorem State.keyUp_getV (k : Nibble) (r : Nibble) : (s.keyUp k).getV r = s.getV r := rfl
@[simp] theorem State.keyUp_memRead (k : Nibble) (a' : Nat) : (s.keyUp k).memRead a' = s.memRead a' := rfl
@[simp] theorem State.keyUp_fetchWord (k : Nibble) : (s.keyUp k).fetchWord = s.fetchWord := rfl
@[simp] theorem State.keyUp_ea (k : Nibble) (k' : Nat) : (s.keyUp k).ea k' = s.ea k' := rfl
@[simp] theorem State.keyUp_npc (k : Nibble) : (s.keyUp k).npc = s.npc := rfl

/-! ### resetInto: the values of 10_state R41 -/

@[simp] theorem State.resetInto_v (cfg : Config) : (s.resetInto cfg).v = Vector.replicate 16 0 := rfl
@[simp] theorem State.resetInto_i (cfg : Config) : (s.resetInto cfg).i = 0 := rfl
@[simp] theorem State.resetInto_pc (cfg : Config) : (s.resetInto cfg).pc = BitVec.ofNat 16 progBase := rfl
@[simp] theorem State.resetInto_stack (cfg : Config) : (s.resetInto cfg).stack = Vector.replicate stackDepth 0 := rfl
@[simp] theorem State.resetInto_sp (cfg : Config) : (s.resetInto cfg).sp = 0 := rfl
@[simp] theorem State.resetInto_dt (cfg : Config) : (s.resetInto cfg).dt = 0 := rfl
@[simp] theorem State.resetInto_st (cfg : Config) : (s.resetInto cfg).st = 0 := rfl
@[simp] theorem State.resetInto_fb (cfg : Config) : (s.resetInto cfg).fb = Vector.replicate 32 (Vector.replicate 64 false) := rfl
@[simp] theorem State.resetInto_keys (cfg : Config) : (s.resetInto cfg).keys = Vector.replicate 16 false := rfl
@[simp] theorem State.resetInto_mem (cfg : Config) : (s.resetInto cfg).mem = [] := rfl
@[simp] theorem State.resetInto_status (cfg : Config) : (s.resetInto cfg).status = .running := rfl
@[simp] theorem State.resetInto_keyLatch (cfg : Config) : (s.resetInto cfg).keyLatch = none := rfl
@[simp] theorem State.resetInto_cycleCtr (cfg : Config) : (s.resetInto cfg).cycleCtr = 0 := rfl
@[simp] theorem State.resetInto_drawCtr (cfg : Config) : (s.resetInto cfg).drawCtr = s.drawCtr := rfl
@[simp] theorem State.resetInto_report (cfg : Config) : (s.resetInto cfg).report = none := rfl
@[simp] theorem State.resetInto_cfg (cfg : Config) : (s.resetInto cfg).cfg = cfg := rfl

end Sys2Proof.Machine
end

