-- ==== Sys2Proof/Laws/Registers.lean ====
section
/-! SUPPORT. Registers: reading after writing, reduction mod 4096, and where the program counter goes. -/

namespace Sys2Proof.Machine

@[simp] theorem wrap12_toNat (w : Word) : (wrap12 w).toNat = w.toNat % 4096 := by simp [wrap12]

theorem wrap12_lt (w : Word) : (wrap12 w).toNat < 4096 := by simpa using Nat.mod_lt _ (by decide)

@[simp] theorem wrap12_wrap12 (w : Word) : wrap12 (wrap12 w) = wrap12 w :=
  BitVec.eq_of_toNat_eq (by simp)

theorem wrap12_of_lt {w : Word} (h : w.toNat < 4096) : wrap12 w = w :=
  BitVec.eq_of_toNat_eq (by simpa using Nat.mod_eq_of_lt h)

/-- Reading a register after writing one. -/
theorem State.getV_setV (s : State) (x r : Nibble) (b : Byte) :
    (s.setV x b).getV r = if r = x then b else s.getV r := by
  by_cases h : r = x
  · subst h; simp [State.getV, State.setV]
  · have : x.toNat ≠ r.toNat := fun e => h (BitVec.eq_of_toNat_eq e.symm)
    simp [State.getV, State.setV, h, this]

/-- Reading a register after a result and a flag are written: the flag wins on `VF` (10_state R22). -/
theorem State.getV_setFlagged (s : State) (x r : Nibble) (b f : Byte) :
    (s.setFlagged x b f).getV r = if r = 15 then f else if r = x then b else s.getV r := by
  simp [State.setFlagged, State.getV_setV]

@[simp] theorem State.npc_toNat (s : State) : s.npc.toNat = (s.pc.toNat + 2) % 4096 := by
  simp only [State.npc, wrap12_toNat, BitVec.toNat_add, BitVec.toNat_ofNat]
  omega

theorem State.advance_pcAdvanced (s t : State) (h : t.pc = s.pc) : PcAdvanced s t.advance := by
  simp only [PcAdvanced, State.advance_pc, wrap12_toNat, State.npc_toNat, h]
  omega

/-- A skip goes two bytes past `npc` when its condition holds, else to `npc`. -/
theorem State.skipIf_pc_toNat (s : State) (c : Bool) :
    (s.skipIf c).pc.toNat = (s.pc.toNat + if c then 4 else 2) % 4096 := by
  have h := s.npc_toNat
  have := s.npc.isLt
  cases c
  · simp only [State.skipIf_pc, wrap12_toNat, Bool.false_eq_true, if_false]; omega
  · simp only [State.skipIf_pc, wrap12_toNat, if_true, BitVec.toNat_add, BitVec.toNat_ofNat]; omega

theorem State.getV_eq_getElem (s : State) (k : Nat) (hk : k < 16) : s.getV (BitVec.ofNat 4 k) = s.v[k] := by
  have : k % 16 = k := Nat.mod_eq_of_lt hk
  simp [State.getV, this]

/-- Reading a register after a block load (42_index_memory R146). -/
theorem State.getV_setRegs_regsLoaded (s u : State) (x r : Nibble) :
    (u.setRegs (s.regsLoaded x)).getV r = if r.toNat ≤ x.toNat then s.memRead (s.ea r.toNat) else s.getV r := by
  simp [State.getV, State.regsLoaded]

end Sys2Proof.Machine
end

