-- ==== Sys2Proof/Laws/Ops.lean ====
section
/-! SUPPORT. One lemma per shared operation that says everything it can do. -/

namespace Sys2Proof.Machine

/-- A push: refused exactly when the stack is full; otherwise the entry at `SP` is written and `SP` grows. -/
theorem State.push_cases (s : State) (w : Word) :
    (s.sp.val = stackDepth ∧ s.push w = none) ∨
    ∃ (h : s.sp.val < stackDepth), s.push w =
      some { s with stack := s.stack.set s.sp.val w h, sp := ⟨s.sp.val + 1, Nat.succ_lt_succ h⟩ } := by
  by_cases h : s.sp.val < stackDepth
  · exact .inr ⟨h, dif_pos h⟩
  · exact .inl ⟨by have := s.sp.isLt; omega, dif_neg h⟩

/-- A pop: refused exactly when the stack is empty; otherwise it gives the top entry and `SP` shrinks. -/
theorem State.pop_cases (s : State) :
    (s.sp.val = 0 ∧ s.pop = none) ∨
    ∃ (_ : 0 < s.sp.val) (hi : s.sp.val - 1 < stackDepth) (hn : s.sp.val - 1 < stackDepth + 1),
      s.pop = some (s.stack[s.sp.val - 1], { s with sp := ⟨s.sp.val - 1, hn⟩ }) := by
  by_cases h : 0 < s.sp.val
  · have := s.sp.isLt
    exact .inr ⟨h, by omega, by omega, dif_pos h⟩
  · exact .inl ⟨by omega, dif_neg h⟩

/-- Outside the stored bytes, a block store changes no byte. -/
theorem State.memRead_storeBlock_outside {s : State} {a b : Nat} {bs : List Byte}
    (hm : Memory.wf (Memory.resetByte s.cfg) s.mem = true) (hb : ∀ k < bs.length, b % memSize ≠ (a + k) % memSize) :
    (s.storeBlock a bs).memRead b = s.memRead b :=
  Memory.read_writeBlock_outside hm hb

/-- The `k`-th stored byte. -/
theorem State.memRead_storeBlock_inside {s : State} {a k : Nat} {bs : List Byte}
    (hm : Memory.wf (Memory.resetByte s.cfg) s.mem = true) (hl : bs.length ≤ memSize) (hk : k < bs.length) :
    (s.storeBlock a bs).memRead (a + k) = bs[k] :=
  Memory.read_writeBlock_inside hm hl hk

theorem State.memRead_mod (s : State) (a : Nat) : s.memRead (a % memSize) = s.memRead a := by
  simp [State.memRead]

/-- A wait slot: nothing while the latch is empty; otherwise the key goes to the register and the wait is over
(60_exceptions R204). -/
theorem State.waitSlot_cases (s : State) (x : Nibble) :
    (s.keyLatch = none ∧ s.waitSlot x = s) ∨
    ∃ k, s.keyLatch = some k ∧
      s.waitSlot x = { (s.setV x (k.zeroExtend 8)).advance with status := .running, keyLatch := none } := by
  cases h : s.keyLatch with
  | none => exact .inl ⟨rfl, by simp [State.waitSlot, h]⟩
  | some k => exact .inr ⟨k, rfl, by simp [State.waitSlot, h]⟩

/-- A press: nothing when the key is down; otherwise `KEYS[k]` is set and the latch is as `latchAfterPress` says
(60_exceptions R231). -/
theorem State.keyDown_cases (s : State) (k : Nibble) :
    (s.key k = true ∧ s.keyDown k = s) ∨
    (s.key k = false ∧ s.keyDown k =
      { s with keys := s.keys.set k.toNat true k.isLt, keyLatch := s.latchAfterPress k }) := by
  cases h : s.key k
  · exact .inr ⟨rfl, by simp [State.keyDown, h]⟩
  · exact .inl ⟨rfl, by simp [State.keyDown, h]⟩

/-- The latch after a press: filled by the first press of a wait, as it was otherwise. -/
theorem State.latchAfterPress_cases (s : State) (k : Nibble) :
    (∃ x, s.status = .awaitingKey x ∧ s.keyLatch = none ∧ s.latchAfterPress k = some k) ∨
    ((∀ x, s.status = .awaitingKey x → s.keyLatch ≠ none) ∧ s.latchAfterPress k = s.keyLatch) := by
  cases hs : s.status <;> cases hl : s.keyLatch <;> simp [State.latchAfterPress, hs, hl]

/-- Reset is refused exactly for a ROM that does not fit (70_reset_and_hazards R241). -/
theorem State.resetWith_cases (s : State) (cfg : Config) (rom : List Byte) :
    (rom.length ≤ maxRom ∧ s.resetWith cfg rom = .next ((s.resetInto cfg).storeBlock progBase rom)) ∨
    (maxRom < rom.length ∧ s.resetWith cfg rom = .refused .romTooLarge) := by
  by_cases h : rom.length ≤ maxRom
  · exact .inl ⟨h, by simp [State.resetWith, wellFormedRom, h]⟩
  · exact .inr ⟨by omega, by simp [State.resetWith, wellFormedRom, h]⟩

/-- A timer counts down by one and stops at 0 (60_exceptions R220). -/
theorem countDown_toNat (t : Byte) : (countDown t).toNat = t.toNat - 1 := by
  unfold countDown
  split_ifs with h
  · simp [h]
  · have : t.toNat ≠ 0 := fun e => h (BitVec.eq_of_toNat_eq (by simpa using e))
    have := t.isLt
    simp only [BitVec.toNat_sub, BitVec.toNat_ofNat]
    omega

/-- Counting a slot: a faulted one is not counted, any other adds one (60_exceptions R224). -/
theorem State.countSlot_cases (s : State) :
    (s.Faulted ∧ s.countSlot = s) ∨ (¬ s.Faulted ∧ s.countSlot = { s with cycleCtr := s.cycleCtr + 1 }) := by
  cases h : s.status <;> simp [State.countSlot, State.Faulted, slotResult, h]

end Sys2Proof.Machine
end

