-- ==== Sys2Proof/Laws/Draw.lean ====
section
/-! SUPPORT. Drawing (43_display R161): what flipping pixels does, and which pixels a sprite flips. -/

namespace Sys2Proof.Machine

/-- One flip changes one pixel. -/
theorem Framebuffer.pixel_flip (fb : Framebuffer) (p q : Pixel) :
    Framebuffer.pixel (Framebuffer.flip fb p) q = (Framebuffer.pixel fb q ^^ decide (q = p)) := by
  obtain ⟨⟨py, hpy⟩, ⟨px, hpx⟩⟩ := p
  obtain ⟨⟨qy, hqy⟩, ⟨qx, hqx⟩⟩ := q
  by_cases hy : py = qy <;> by_cases hx : px = qx
  · subst hy; subst hx; simp [Framebuffer.pixel, Framebuffer.flip]
  · subst hy; simp [Framebuffer.pixel, Framebuffer.flip, hx, Ne.symm hx]
  · simp [Framebuffer.pixel, Framebuffer.flip, hy, Ne.symm hy]
  · simp [Framebuffer.pixel, Framebuffer.flip, hy, Ne.symm hy]

/-- XOR of distinct pixels: exactly the listed pixels change, and the collision says that one of them was set. -/
theorem Framebuffer.xorPixels_spec {ps : List Pixel} (h : ps.Nodup) (fb : Framebuffer) :
    (∀ q, Framebuffer.pixel (Framebuffer.xorPixels fb ps).1 q = (Framebuffer.pixel fb q ^^ decide (q ∈ ps))) ∧
    ((Framebuffer.xorPixels fb ps).2 = true ↔ ∃ q ∈ ps, Framebuffer.pixel fb q = true) := by
  induction ps generalizing fb with
  | nil => simp [Framebuffer.xorPixels]
  | cons p ps ih =>
    obtain ⟨hp, h⟩ := List.nodup_cons.1 h
    obtain ⟨ih1, ih2⟩ := ih h (Framebuffer.flip fb p)
    constructor
    · intro q
      rw [Framebuffer.xorPixels, ih1, Framebuffer.pixel_flip]
      by_cases hq : q = p
      · subst hq; simp [hp]
      · simp [hq]
    · simp only [Framebuffer.xorPixels, Bool.or_eq_true, ih2, List.mem_cons, exists_eq_or_imp]
      refine or_congr Iff.rfl (exists_congr fun q => and_congr_right fun hq => ?_)
      have : q ≠ p := fun e => hp (e ▸ hq)
      simp [Framebuffer.pixel_flip, this]

/-- Two framebuffers with the same pixels are equal. -/
theorem Framebuffer.ext_pixel {f g : Framebuffer} (h : ∀ p, Framebuffer.pixel f p = Framebuffer.pixel g p) : f = g := by
  refine Vector.ext fun y hy => Vector.ext fun x hx => ?_
  simpa [Framebuffer.pixel] using h (⟨y, hy⟩, ⟨x, hx⟩)

/-- Two columns less than 64 apart, or rows less than 32 apart, land on different pixels. -/
theorem placePixel_inj {w : Bool} {py px py' px' : Nat} {p : Pixel} (h : placePixel w py px = some p)
    (h' : placePixel w py' px' = some p) (hy : py < py' + 32 ∧ py' < py + 32) (hx : px < px' + 64 ∧ px' < px + 64) :
    py = py' ∧ px = px' := by
  unfold placePixel at h h'
  split_ifs at h h' with hw h1 h2
  · cases h
    simp only [Option.some.injEq, Prod.mk.injEq, Fin.ext_iff, Fin.ofNat] at h'
    omega
  · cases h
    simp only [Option.some.injEq, Prod.mk.injEq, Fin.ext_iff] at h'
    omega

theorem mem_rowPixels {w : Bool} {py px : Nat} {b : Byte} {p : Pixel} :
    p ∈ rowPixels w py px b ↔ ∃ c < 8, spriteBit b c = true ∧ placePixel w py (px + c) = some p := by
  simp [rowPixels, List.mem_filterMap]

/-- The eight pixels of a row are distinct. -/
theorem nodup_rowPixels (w : Bool) (py px : Nat) (b : Byte) : (rowPixels w py px b).Nodup := by
  refine List.pairwise_filterMap.2 (List.nodup_range.imp_of_mem fun {c c'} hc hc' hne p hp p' hp' e => ?_)
  rw [List.mem_range] at hc hc'
  split_ifs at hp hp' with h1 h2
  · exact hne (by have := placePixel_inj hp (e ▸ hp') (by omega) (by omega); omega)

theorem State.mem_spritePixels {s : State} {x y n : Nibble} {p : Pixel} :
    p ∈ s.spritePixels x y n ↔ ∃ r < n.toNat, ∃ c < 8, spriteBit (s.memRead (s.ea r)) c = true ∧
      placePixel s.cfg.drawWrap (s.originRow y + r) (s.originColumn x + c) = some p := by
  simp [State.spritePixels, mem_rowPixels]

/-- Within one draw no pixel is touched twice (43_display R161 (h)). -/
theorem State.nodup_spritePixels (s : State) (x y n : Nibble) : (s.spritePixels x y n).Nodup := by
  refine List.nodup_flatMap.2 ⟨fun _ _ => nodup_rowPixels _ _ _ _, ?_⟩
  refine List.nodup_range.imp_of_mem fun {r r'} hr hr' hne => List.disjoint_left.2 fun p hp hp' => ?_
  obtain ⟨c, hc, -, hp⟩ := mem_rowPixels.1 hp
  obtain ⟨c', hc', -, hp'⟩ := mem_rowPixels.1 hp'
  rw [List.mem_range] at hr hr'
  have := n.isLt
  have := placePixel_inj hp hp' (by omega) (by omega)
  omega

/-- A draw: exactly the sprite's pixels change, and the collision says that one of them was set. -/
theorem State.drawSprite_spec (s : State) (x y n : Nibble) :
    (∀ q, Framebuffer.pixel (s.drawSprite x y n).1 q =
      (Framebuffer.pixel s.fb q ^^ decide (q ∈ s.spritePixels x y n))) ∧
    ((s.drawSprite x y n).2 = true ↔ ∃ q ∈ s.spritePixels x y n, Framebuffer.pixel s.fb q = true) :=
  Framebuffer.xorPixels_spec (s.nodup_spritePixels x y n) s.fb

end Sys2Proof.Machine
end

