-- ==== Sys2Proof/Laws/PerInstr.lean ====
section
/-! SUPPORT. Per-instruction laws. Family RowMatch: the encoder puts the row's fixed bits of 30_encoding R74 into the word. -/

namespace Sys2Proof.Laws.RowMatch

/-- The instruction's word matches its own row of the opcode map, and the row is one of the table's. -/
def Statement (i : Instr) : Prop := encode i &&& i.row.mask = i.row.bits ∧ i.row ∈ opcodeTable

/-- A 4-bit field followed by 12 bits: the mask `F000` keeps the field. -/
theorem nnn_row (a : Nibble) (nnn : Addr) : encodeNNN a nnn &&& 0xF000 = a ++ 0#12 := by
  unfold encodeNNN
  refine BitVec.eq_of_getLsbD_eq fun i hi => ?_
  simp only [BitVec.getLsbD_and, BitVec.getLsbD_append]
  interval_cases i <;> simp

theorem xkk_row (a x : Nibble) (kk : Byte) : encodeXKK a x kk &&& 0xF000 = a ++ 0#12 := by
  unfold encodeXKK
  refine BitVec.eq_of_getLsbD_eq fun i hi => ?_
  simp only [BitVec.getLsbD_and, BitVec.getLsbD_append]
  interval_cases i <;> simp

theorem x_row (a x : Nibble) (kk : Byte) : encodeXKK a x kk &&& 0xF0FF = a ++ 0#4 ++ kk := by
  unfold encodeXKK
  refine BitVec.eq_of_getLsbD_eq fun i hi => ?_
  simp only [BitVec.getLsbD_and, BitVec.getLsbD_append]
  interval_cases i <;> simp

theorem xy_row (a x y n : Nibble) : encodeXYN a x y n &&& 0xF00F = a ++ 0#8 ++ n := by
  unfold encodeXYN
  refine BitVec.eq_of_getLsbD_eq fun i hi => ?_
  simp only [BitVec.getLsbD_and, BitVec.getLsbD_append]
  interval_cases i <;> simp

theorem xyn_row (a x y n : Nibble) : encodeXYN a x y n &&& 0xF000 = a ++ 0#12 := by
  unfold encodeXYN
  refine BitVec.eq_of_getLsbD_eq fun i hi => ?_
  simp only [BitVec.getLsbD_and, BitVec.getLsbD_append]
  interval_cases i <;> simp

theorem cls : Statement (.cls) := ⟨by decide, by decide⟩
theorem ret : Statement (.ret) := ⟨by decide, by decide⟩
theorem jp (nnn : Addr) : Statement (.jp nnn) := ⟨(nnn_row 0x1 nnn).trans rfl, by simp [Instr.row, opcodeTable]⟩
theorem call (nnn : Addr) : Statement (.call nnn) := ⟨(nnn_row 0x2 nnn).trans rfl, by simp [Instr.row, opcodeTable]⟩
theorem seImm (x : Nibble) (kk : Byte) : Statement (.seImm x kk) := ⟨(xkk_row 0x3 x kk).trans rfl, by simp [Instr.row, opcodeTable]⟩
theorem sneImm (x : Nibble) (kk : Byte) : Statement (.sneImm x kk) := ⟨(xkk_row 0x4 x kk).trans rfl, by simp [Instr.row, opcodeTable]⟩
theorem seReg (x y : Nibble) : Statement (.seReg x y) := ⟨(xy_row 0x5 x y 0x0).trans rfl, by simp [Instr.row, opcodeTable]⟩
theorem ldImm (x : Nibble) (kk : Byte) : Statement (.ldImm x kk) := ⟨(xkk_row 0x6 x kk).trans rfl, by simp [Instr.row, opcodeTable]⟩
theorem addImm (x : Nibble) (kk : Byte) : Statement (.addImm x kk) := ⟨(xkk_row 0x7 x kk).trans rfl, by simp [Instr.row, opcodeTable]⟩
theorem ldReg (x y : Nibble) : Statement (.ldReg x y) := ⟨(xy_row 0x8 x y 0x0).trans rfl, by simp [Instr.row, opcodeTable]⟩
theorem orReg (x y : Nibble) : Statement (.orReg x y) := ⟨(xy_row 0x8 x y 0x1).trans rfl, by simp [Instr.row, opcodeTable]⟩
theorem andReg (x y : Nibble) : Statement (.andReg x y) := ⟨(xy_row 0x8 x y 0x2).trans rfl, by simp [Instr.row, opcodeTable]⟩
theorem xorReg (x y : Nibble) : Statement (.xorReg x y) := ⟨(xy_row 0x8 x y 0x3).trans rfl, by simp [Instr.row, opcodeTable]⟩
theorem addReg (x y : Nibble) : Statement (.addReg x y) := ⟨(xy_row 0x8 x y 0x4).trans rfl, by simp [Instr.row, opcodeTable]⟩
theorem subReg (x y : Nibble) : Statement (.subReg x y) := ⟨(xy_row 0x8 x y 0x5).trans rfl, by simp [Instr.row, opcodeTable]⟩
theorem shrReg (x y : Nibble) : Statement (.shrReg x y) := ⟨(xy_row 0x8 x y 0x6).trans rfl, by simp [Instr.row, opcodeTable]⟩
theorem subnReg (x y : Nibble) : Statement (.subnReg x y) := ⟨(xy_row 0x8 x y 0x7).trans rfl, by simp [Instr.row, opcodeTable]⟩
theorem shlReg (x y : Nibble) : Statement (.shlReg x y) := ⟨(xy_row 0x8 x y 0xE).trans rfl, by simp [Instr.row, opcodeTable]⟩
theorem sneReg (x y : Nibble) : Statement (.sneReg x y) := ⟨(xy_row 0x9 x y 0x0).trans rfl, by simp [Instr.row, opcodeTable]⟩
theorem ldI (nnn : Addr) : Statement (.ldI nnn) := ⟨(nnn_row 0xA nnn).trans rfl, by simp [Instr.row, opcodeTable]⟩
theorem jpV0 (nnn : Addr) : Statement (.jpV0 nnn) := ⟨(nnn_row 0xB nnn).trans rfl, by simp [Instr.row, opcodeTable]⟩
theorem rnd (x : Nibble) (kk : Byte) : Statement (.rnd x kk) := ⟨(xkk_row 0xC x kk).trans rfl, by simp [Instr.row, opcodeTable]⟩
theorem drw (x y n : Nibble) : Statement (.drw x y n) := ⟨(xyn_row 0xD x y n).trans rfl, by simp [Instr.row, opcodeTable]⟩
theorem skp (x : Nibble) : Statement (.skp x) := ⟨(x_row 0xE x 0x9E).trans rfl, by simp [Instr.row, opcodeTable]⟩
theorem sknp (x : Nibble) : Statement (.sknp x) := ⟨(x_row 0xE x 0xA1).trans rfl, by simp [Instr.row, opcodeTable]⟩
theorem ldVxDt (x : Nibble) : Statement (.ldVxDt x) := ⟨(x_row 0xF x 0x07).trans rfl, by simp [Instr.row, opcodeTable]⟩
theorem ldVxK (x : Nibble) : Statement (.ldVxK x) := ⟨(x_row 0xF x 0x0A).trans rfl, by simp [Instr.row, opcodeTable]⟩
theorem ldDtVx (x : Nibble) : Statement (.ldDtVx x) := ⟨(x_row 0xF x 0x15).trans rfl, by simp [Instr.row, opcodeTable]⟩
theorem ldStVx (x : Nibble) : Statement (.ldStVx x) := ⟨(x_row 0xF x 0x18).trans rfl, by simp [Instr.row, opcodeTable]⟩
theorem addI (x : Nibble) : Statement (.addI x) := ⟨(x_row 0xF x 0x1E).trans rfl, by simp [Instr.row, opcodeTable]⟩
theorem ldF (x : Nibble) : Statement (.ldF x) := ⟨(x_row 0xF x 0x29).trans rfl, by simp [Instr.row, opcodeTable]⟩
theorem ldB (x : Nibble) : Statement (.ldB x) := ⟨(x_row 0xF x 0x33).trans rfl, by simp [Instr.row, opcodeTable]⟩
theorem stRegs (x : Nibble) : Statement (.stRegs x) := ⟨(x_row 0xF x 0x55).trans rfl, by simp [Instr.row, opcodeTable]⟩
theorem ldRegs (x : Nibble) : Statement (.ldRegs x) := ⟨(x_row 0xF x 0x65).trans rfl, by simp [Instr.row, opcodeTable]⟩

end Sys2Proof.Laws.RowMatch
end

