-- ==== Sys2Proof/Laws/Encoding.lean ====
section
/-! SUPPORT. The fields of an encoded word (30_encoding R71, R72), and a word as its four nibbles. -/

namespace Sys2Proof

@[simp] theorem fieldA_encodeNNN (a : Nibble) (nnn : Addr) : fieldA (encodeNNN a nnn) = a := by
  refine BitVec.eq_of_getLsbD_eq fun i hi => ?_
  simp only [fieldA, encodeNNN, BitVec.getLsbD_extractLsb', BitVec.getLsbD_append]
  interval_cases i <;> simp

@[simp] theorem fieldNNN_encodeNNN (a : Nibble) (nnn : Addr) : fieldNNN (encodeNNN a nnn) = nnn := by
  refine BitVec.eq_of_getLsbD_eq fun i hi => ?_
  simp only [fieldNNN, encodeNNN, BitVec.getLsbD_extractLsb', BitVec.getLsbD_append]
  interval_cases i <;> simp

@[simp] theorem fieldA_encodeXKK (a x : Nibble) (kk : Byte) : fieldA (encodeXKK a x kk) = a := by
  refine BitVec.eq_of_getLsbD_eq fun i hi => ?_
  simp only [fieldA, encodeXKK, BitVec.getLsbD_extractLsb', BitVec.getLsbD_append]
  interval_cases i <;> simp

@[simp] theorem fieldX_encodeXKK (a x : Nibble) (kk : Byte) : fieldX (encodeXKK a x kk) = x := by
  refine BitVec.eq_of_getLsbD_eq fun i hi => ?_
  simp only [fieldX, encodeXKK, BitVec.getLsbD_extractLsb', BitVec.getLsbD_append]
  interval_cases i <;> simp

@[simp] theorem fieldKK_encodeXKK (a x : Nibble) (kk : Byte) : fieldKK (encodeXKK a x kk) = kk := by
  refine BitVec.eq_of_getLsbD_eq fun i hi => ?_
  simp only [fieldKK, encodeXKK, BitVec.getLsbD_extractLsb', BitVec.getLsbD_append]
  interval_cases i <;> simp

@[simp] theorem fieldA_encodeXYN (a x y n : Nibble) : fieldA (encodeXYN a x y n) = a := by
  refine BitVec.eq_of_getLsbD_eq fun i hi => ?_
  simp only [fieldA, encodeXYN, BitVec.getLsbD_extractLsb', BitVec.getLsbD_append]
  interval_cases i <;> simp

@[simp] theorem fieldX_encodeXYN (a x y n : Nibble) : fieldX (encodeXYN a x y n) = x := by
  refine BitVec.eq_of_getLsbD_eq fun i hi => ?_
  simp only [fieldX, encodeXYN, BitVec.getLsbD_extractLsb', BitVec.getLsbD_append]
  interval_cases i <;> simp

@[simp] theorem fieldY_encodeXYN (a x y n : Nibble) : fieldY (encodeXYN a x y n) = y := by
  refine BitVec.eq_of_getLsbD_eq fun i hi => ?_
  simp only [fieldY, encodeXYN, BitVec.getLsbD_extractLsb', BitVec.getLsbD_append]
  interval_cases i <;> simp

@[simp] theorem fieldN_encodeXYN (a x y n : Nibble) : fieldN (encodeXYN a x y n) = n := by
  refine BitVec.eq_of_getLsbD_eq fun i hi => ?_
  simp only [fieldN, encodeXYN, BitVec.getLsbD_extractLsb', BitVec.getLsbD_append]
  interval_cases i <;> simp

/-- A word is its four nibbles. -/
theorem word_eq_nibbles (op : Word) : op = encodeXYN (fieldA op) (fieldX op) (fieldY op) (fieldN op) := by
  refine BitVec.eq_of_getLsbD_eq fun i hi => ?_
  simp only [fieldA, fieldX, fieldY, fieldN, encodeXYN, BitVec.getLsbD_extractLsb', BitVec.getLsbD_append]
  interval_cases i <;> simp

/-- A word is its major opcode and its address immediate. -/
theorem word_eq_nnn (op : Word) : op = encodeNNN (fieldA op) (fieldNNN op) := by
  refine BitVec.eq_of_getLsbD_eq fun i hi => ?_
  simp only [fieldA, fieldNNN, encodeNNN, BitVec.getLsbD_extractLsb', BitVec.getLsbD_append]
  interval_cases i <;> simp

/-- A word is its major opcode, its register number and its byte immediate. -/
theorem word_eq_xkk (op : Word) : op = encodeXKK (fieldA op) (fieldX op) (fieldKK op) := by
  refine BitVec.eq_of_getLsbD_eq fun i hi => ?_
  simp only [fieldA, fieldX, fieldKK, encodeXKK, BitVec.getLsbD_extractLsb', BitVec.getLsbD_append]
  interval_cases i <;> simp

/-- The high and the low byte of a word made of two bytes (20_memory R53). -/
theorem wordOfBytes_bytes (hi lo : Byte) : bytesOfWord (wordOfBytes hi lo) = [hi, lo] := by
  have h1 : (wordOfBytes hi lo).extractLsb' 8 8 = hi := by
    refine BitVec.eq_of_getLsbD_eq fun i h => ?_
    simp only [wordOfBytes, BitVec.getLsbD_extractLsb', BitVec.getLsbD_append]
    interval_cases i <;> simp
  have h2 : (wordOfBytes hi lo).extractLsb' 0 8 = lo := by
    refine BitVec.eq_of_getLsbD_eq fun i h => ?_
    simp only [wordOfBytes, BitVec.getLsbD_extractLsb', BitVec.getLsbD_append]
    interval_cases i <;> simp
  simp [bytesOfWord, h1, h2]

end Sys2Proof
end

