-- ==== Sys2Proof/Laws/Step.lean ====
section
/-! SUPPORT. What one step can do, said once: every claim about steps starts from `step_cases`. -/

namespace Sys2Proof.Machine

/-- An execute slot that answers a next state ran an instruction, raised `InvalidOpcode`, or was a wait slot
(60_exceptions R201). -/
theorem execSlot_cases {s t : State} (h : execSlot s = .next t) :
    (∃ i, s.status = .running ∧ decode s.fetchWord = .ok i ∧ exec i s = .next t) ∨
    (∃ e, s.status = .running ∧ decode s.fetchWord = .invalid e ∧ t = s.takeFault .invalidOpcode) ∨
    (∃ x, s.status = .awaitingKey x ∧ t = s.waitSlot x) := by
  unfold execSlot at h
  split at h
  · rename_i hs
    split at h
    · rename_i i hd
      exact .inl ⟨i, hs, hd, h⟩
    · rename_i e hd
      exact .inr (.inl ⟨e, hs, hd, by cases h; rfl⟩)
  · rename_i x hs
    exact .inr (.inr ⟨x, hs, by cases h; rfl⟩)
  · cases h

theorem countOutcome_next {o : Host.Outcome State Fault Refusal} {t : State} (h : countOutcome o = .next t) :
    ∃ u, o = .next u ∧ t = u.countSlot := by
  cases o with
  | next u => exact ⟨u, rfl, by cases h; rfl⟩
  | fault r => cases h
  | refused r => cases h

/-- A step that answers a next state is a counted execute slot or a timer tick, by `CYCLE_CTR`, and never starts from a
faulted state (60_exceptions R224, R205). -/
theorem step_cases {s t : State} (h : step s = .next t) :
    ¬ s.Faulted ∧
    ((s.cycleCtr < s.cfg.cyclesPerFrame ∧ ∃ u, execSlot s = .next u ∧ t = u.countSlot) ∨
     (s.cfg.cyclesPerFrame ≤ s.cycleCtr ∧ t = s.timerTick.resetCycleCtr)) := by
  have key : s.Faulted ∨ step s = if s.cycleCtr < s.cfg.cyclesPerFrame then countOutcome (execSlot s)
      else .next s.timerTick.resetCycleCtr := by
    unfold step schedStep
    split
    · rename_i c hs; exact .inl ⟨c, hs⟩
    · exact .inr rfl
  by_cases hf : s.Faulted
  · obtain ⟨c, hc⟩ := hf
    simp [step, schedStep, hc] at h
  refine ⟨hf, ?_⟩
  rw [key.resolve_left hf] at h
  split_ifs at h with hc
  · obtain ⟨u, hu, ht⟩ := countOutcome_next h
    exact .inl ⟨hc, u, hu, ht⟩
  · exact .inr ⟨by omega, by cases h; rfl⟩

/-- What a step is when the core is not faulted. -/
theorem step_of_not_faulted {s : State} (h : ¬ s.Faulted) :
    step s = if s.cycleCtr < s.cfg.cyclesPerFrame then countOutcome (execSlot s)
      else .next s.timerTick.resetCycleCtr := by
  unfold step schedStep
  split
  · rename_i c hs; exact absurd ⟨c, hs⟩ h
  · rfl

end Sys2Proof.Machine
end

