-- ==== Sys2Proof/Tests/Slice0.lean ====
section
/-! SUPPORT. The model's own tests: what the well-formedness checks refuse, one written-out word per instruction, one or two
single slots per instruction from the vectors of 95_test_vectors, and a witness for the hypotheses of each statement. -/

namespace Sys2Proof.Tests

open Sys2Proof Sys2Proof.Machine

/-- The start state of 95_test_vectors: reset, all quirks false, the suggested font at 0x050. -/
def chip : State := State.initial Config.testVectors

/-- The same with `shift_legacy`, `load_store_increment_i` and `draw_wrap` set. -/
def chipQ : State :=
  State.initial { Config.testVectors with shiftLegacy := true, loadStoreIncrementI := true, drawWrap := true }

/-- The same with one slot per frame, already used: the next step is a timer tick. -/
def atTick : State := { State.initial { Config.testVectors with cyclesPerFrame := 1 } with cycleCtr := 1 }

/-- One step of a state with a word placed at `PC`, and what is seen of the next state. -/
def sees (s : State) (w : Nat) (p : State → Bool) : Bool :=
  match step (s.withFetchWord 16 w) with
  | .next t => p t
  | _ => false

/-- The same for a host operation. -/
def seesEvent (e : Event) (s : State) (p : State → Bool) : Bool :=
  match applyEvent e s with
  | .next t => p t
  | _ => false

/-- Which pixels of a list are set. -/
def lit (s : State) (ps : List Pixel) : List Bool := ps.map (Framebuffer.pixel s.fb)

/-! ### Well-formedness: each check refuses an ill-formed term -/

/-- 30_encoding R78. -/
theorem test_wellFormedWord_refuses_zero : wellFormedWord 0x0000 = false := by decide
/-- 30_encoding R75: one word refused in each of the nibble groups, and a neighbour accepted. -/
theorem test_wellFormedWord_by_group :
    [0x00E1, 0x5AB1, 0x9AB1, 0x8128, 0x812F, 0xE19F, 0xF1FF].map wellFormedWord = List.replicate 7 false ∧
    [0x00E0, 0x5AB0, 0x9AB0, 0x8127, 0x812E, 0xE19E, 0xF165].map wellFormedWord = List.replicate 7 true := by decide
/-- 00_scope R8: the font has to end at 0x200 at the latest. -/
theorem test_wellFormed_fontBase :
    Config.wellFormed { Config.testVectors with fontBase := 433 } = false ∧
    Config.wellFormed { Config.testVectors with fontBase := 432 } = true := by decide
/-- 70_reset_and_hazards R241. -/
theorem test_wellFormedRom_limit :
    wellFormedRom (List.replicate 3585 0) = false ∧ wellFormedRom (List.replicate 3584 0) = true := by
  unfold wellFormedRom
  rw [List.length_replicate, List.length_replicate]
  decide
/-- The canonical form of memory refuses a listed byte equal to its reset contents, a falling pair and an address outside. -/
theorem test_memory_wf_refuses :
    Memory.wf (Memory.resetByte Config.testVectors) [(0x300, 0)] = false ∧
    Memory.wf (Memory.resetByte Config.testVectors) [(0x050, 0xF0)] = false ∧
    Memory.wf (Memory.resetByte Config.testVectors) [(0x301, 1), (0x300, 1)] = false ∧
    Memory.wf (Memory.resetByte Config.testVectors) [(0x1000, 1)] = false ∧
    Memory.wf (Memory.resetByte Config.testVectors) [(0x050, 0), (0x300, 1)] = true := by decide

/-! ### Decoding: one word per instruction, written out in bits from the table of 30_encoding R74 -/

theorem test_decode_flow :
    decode 0b0000000011101110 = .ok .ret ∧ decode 0b0001001000110100 = .ok (.jp 0x234) ∧
    decode 0b0010101010111100 = .ok (.call 0xABC) ∧ decode 0b1011001100000000 = .ok (.jpV0 0x300) ∧
    decode 0b0011101001000010 = .ok (.seImm 0xA 0x42) ∧ decode 0b0100101001000010 = .ok (.sneImm 0xA 0x42) ∧
    decode 0b0101000100100000 = .ok (.seReg 1 2) ∧ decode 0b1001000100100000 = .ok (.sneReg 1 2) := by decide
theorem test_decode_alu :
    decode 0b0110101000111100 = .ok (.ldImm 0xA 0x3C) ∧ decode 0b0111000100100000 = .ok (.addImm 1 0x20) ∧
    decode 0b1000000100100000 = .ok (.ldReg 1 2) ∧ decode 0b1000000100100001 = .ok (.orReg 1 2) ∧
    decode 0b1000000100100010 = .ok (.andReg 1 2) ∧ decode 0b1000000100100011 = .ok (.xorReg 1 2) ∧
    decode 0b1000000100100100 = .ok (.addReg 1 2) ∧ decode 0b1000000100100101 = .ok (.subReg 1 2) ∧
    decode 0b1000000100100110 = .ok (.shrReg 1 2) ∧ decode 0b1000000100100111 = .ok (.subnReg 1 2) ∧
    decode 0b1000000100101110 = .ok (.shlReg 1 2) ∧ decode 0b1100000100001111 = .ok (.rnd 1 0x0F) := by decide
theorem test_decode_index :
    decode 0b1010001011110000 = .ok (.ldI 0x2F0) ∧ decode 0b1111001000011110 = .ok (.addI 2) ∧
    decode 0b1111001100101001 = .ok (.ldF 3) ∧ decode 0b1111010000110011 = .ok (.ldB 4) ∧
    decode 0b1111001001010101 = .ok (.stRegs 2) ∧ decode 0b1111001001100101 = .ok (.ldRegs 2) := by decide
theorem test_decode_display_keypad :
    decode 0b0000000011100000 = .ok .cls ∧ decode 0b1101010110100011 = .ok (.drw 5 0xA 3) ∧
    decode 0b1110000110011110 = .ok (.skp 1) ∧ decode 0b1110000110100001 = .ok (.sknp 1) ∧
    decode 0b1111000100000111 = .ok (.ldVxDt 1) ∧ decode 0b1111001100001010 = .ok (.ldVxK 3) ∧
    decode 0b1111000100010101 = .ok (.ldDtVx 1) ∧ decode 0b1111000100011000 = .ok (.ldStVx 1) := by decide
/-- 95_test_vectors K22, X1 to X4. -/
theorem test_decode_invalid :
    ∀ op ∈ ([0xE19F, 0xF100, 0xF1FF, 0xF175, 0x0000, 0x0123, 0x00E1, 0x00FE, 0x00EF, 0xFFFF] : List Word),
      ∃ e, decode op = .invalid e := by
  intro op h
  fin_cases h <;> exact ⟨_, rfl⟩
/-- 20_memory R53: the byte at the lower address is the high byte; too few bytes are no instruction. -/
theorem test_decodeBytes_order :
    decodeBytes [0xD5, 0xA3] = .ok (.drw 5 0xA 3) ∧ decodeBytes [0xD5] = .invalid .tooFewBytes := by decide
/-- Every row of the opcode table, its free bits zero, decodes and is run by the first step after reset. -/
theorem test_every_row_runs_from_reset :
    (opcodeTable.map fun r => ((decodeTableWord 16 r.bits.toNat).isSome && sees State.reset r.bits.toNat fun _ => true))
      = List.replicate 34 true := by decide

/-! ### Control flow (95_test_vectors 2.1) -/

/-- F1. -/
theorem test_ret_pops :
    sees { chip with pc := 0x456, sp := 1, stack := chip.stack.set 0 0x3A2 } 0x00EE
      (fun t => t.pc = 0x3A2 ∧ t.sp = 0 ∧ t.stack[0] = 0x3A2 ∧ t.cycleCtr = 1) = true := by decide
/-- F2. -/
theorem test_ret_underflow :
    sees chip 0x00EE (fun t => t.status = .faulted .stackUnderflow ∧ t.pc = 0x200 ∧ t.cycleCtr = 0) = true := by decide
/-- F3. -/
theorem test_jp_odd : sees chip 0x1FFF (fun t => t.pc = 0xFFF) = true := by decide
/-- F5. -/
theorem test_call_wraps :
    sees { chip with pc := 0xFFE, sp := 15 } 0x2ABC (fun t => t.stack[15] = 0 ∧ t.sp = 16 ∧ t.pc = 0xABC) = true := by
  decide
/-- F6. -/
theorem test_call_overflow :
    sees { chip with pc := 0x300, sp := 16 } 0x2ABC
      (fun t => t.status = .faulted .stackOverflow ∧ t.pc = 0x300 ∧ t.sp = 16) = true := by decide
/-- F9. -/
theorem test_jpV0_wraps : sees (chip.setV 0 0xFF) 0xBFFF (fun t => t.pc = 0x0FE) = true := by decide
/-- F10, with the quirk set. -/
theorem test_jpV0_quirk_inert :
    sees (State.setV { chip with cfg := { chip.cfg with jumpWithV0Quirk := true } } 3 0x77) 0xB300
      (fun t => t.pc = 0x300) = true := by decide
/-- F13. -/
theorem test_seImm_skip_wraps : sees ((chip.setV 0xA 0x42).setPc 0xFFC) 0x3A42 (fun t => t.pc = 0) = true := by decide
/-- F12. -/
theorem test_seImm_no_skip : sees (chip.setV 0xA 0x43) 0x3A42 (fun t => t.pc = 0x202) = true := by decide
/-- 40_flow R105, example. -/
theorem test_sneImm : sees chip 0x432A (fun t => t.pc = 0x204) = true := by decide
/-- 40_flow R106, example. -/
theorem test_seReg : sees ((chip.setV 1 7).setV 2 7) 0x5120 (fun t => t.pc = 0x204) = true := by decide
/-- 40_flow R107, example. -/
theorem test_sneReg : sees ((chip.setV 1 7).setV 2 8) 0x9120 (fun t => t.pc = 0x204) = true := by decide

/-! ### Arithmetic and logic (95_test_vectors part 1 and 2.2; examples of 41_alu) -/

theorem test_ldImm : sees chip 0x6A3C (fun t => t.getV 0xA = 0x3C ∧ t.pc = 0x202) = true := by decide
theorem test_addImm_no_flag :
    sees ((chip.setV 1 0xF0).setV 15 7) 0x7120 (fun t => t.getV 1 = 0x10 ∧ t.getV 15 = 7) = true := by decide
theorem test_ldReg : sees (chip.setV 2 0x55) 0x8120 (fun t => t.getV 1 = 0x55) = true := by decide
theorem test_orReg : sees ((chip.setV 1 0xF0).setV 2 0x0F) 0x8121 (fun t => t.getV 1 = 0xFF) = true := by decide
theorem test_andReg : sees ((chip.setV 1 0xF3).setV 2 0x3F) 0x8122 (fun t => t.getV 1 = 0x33) = true := by decide
theorem test_xorReg : sees ((chip.setV 1 0xFF).setV 2 0x0F) 0x8123 (fun t => t.getV 1 = 0xF0) = true := by decide
/-- S1. -/
theorem test_addReg_carry :
    sees ((chip.setV 1 0xC8).setV 2 0x64) 0x8124 (fun t => t.getV 1 = 0x2C ∧ t.getV 15 = 1) = true := by decide
/-- 41_alu R126: with `x = 15` the flag wins. -/
theorem test_addReg_flag_wins :
    sees ((chip.setV 15 0x20).setV 2 0x10) 0x8F24 (fun t => t.getV 15 = 0) = true := by decide
/-- S2. -/
theorem test_subReg :
    sees ((chip.setV 1 0x05).setV 2 0x0A) 0x8125 (fun t => t.getV 1 = 0xFB ∧ t.getV 15 = 0) = true := by decide
/-- S2: equal operands. -/
theorem test_subReg_equal :
    sees ((chip.setV 1 7).setV 2 7) 0x8125 (fun t => t.getV 1 = 0 ∧ t.getV 15 = 1) = true := by decide
/-- 41_alu R129, example. -/
theorem test_subnReg :
    sees ((chip.setV 1 0x05).setV 2 0x0A) 0x8127 (fun t => t.getV 1 = 0x05 ∧ t.getV 15 = 1) = true := by decide
/-- S5, both settings of the quirk. -/
theorem test_shrReg :
    sees ((chip.setV 1 0x05).setV 2 0x81) 0x8126 (fun t => t.getV 1 = 0x02 ∧ t.getV 2 = 0x81 ∧ t.getV 15 = 1) = true ∧
    sees ((chipQ.setV 1 0x05).setV 2 0x81) 0x8126 (fun t => t.getV 1 = 0x40 ∧ t.getV 2 = 0x81 ∧ t.getV 15 = 1) = true := by
  decide
/-- 41_alu R130, example and `s = 0x7F`. -/
theorem test_shlReg :
    sees (chip.setV 1 0x81) 0x812E (fun t => t.getV 1 = 0x02 ∧ t.getV 15 = 1) = true ∧
    sees (chipQ.setV 2 0x7F) 0x812E (fun t => t.getV 1 = 0xFE ∧ t.getV 15 = 0) = true := by decide
/-- 41_alu R131: with `kk = 0` the result is 0 for certain, and the draw is consumed. -/
theorem test_rnd_masked : sees (chip.setV 1 9) 0xC100 (fun t => t.drawCtr = 1 ∧ t.pc = 0x202) = true := by decide

/-! ### Index register and memory (95_test_vectors 2.3) -/

/-- M1. -/
theorem test_ldI : sees chip 0xAFFF (fun t => t.i = 0xFFF) = true := by decide
/-- M2, M3. -/
theorem test_addI_wraps :
    sees (State.setV { chip with i := 0xFFF } 2 1) 0xF21E (fun t => t.i = 0 ∧ t.getV 15 = 0) = true ∧
    sees (State.setV { chip with i := 0xF80 } 2 0xFF) 0xF21E (fun t => t.i = 0x07F) = true := by decide
/-- M5, M6. -/
theorem test_ldF :
    sees (chip.setV 3 0xFA) 0xF329 (fun t => t.i = 0x082) = true ∧
    sees (chip.setV 3 0x0F) 0xF329 (fun t => t.i = 0x09B) = true := by decide
/-- M8. -/
theorem test_ldB :
    sees (State.setV { chip with i := 0x300 } 4 0x9C) 0xF433
      (fun t => t.memRead 0x300 = 1 ∧ t.memRead 0x301 = 5 ∧ t.memRead 0x302 = 6 ∧ t.i = 0x300) = true := by decide
/-- M9. -/
theorem test_ldB_wraps :
    sees (State.setV { chip with i := 0xFFE } 4 0xFF) 0xF433
      (fun t => t.memRead 0xFFE = 2 ∧ t.memRead 0xFFF = 5 ∧ t.memRead 0 = 5) = true := by decide
/-- M11. -/
theorem test_stRegs :
    sees (State.setV (State.setV (State.setV (State.setV { chip with i := 0x400 } 0 0x11) 1 0x22) 2 0x33) 3 0x44) 0xF255
      (fun t => t.memRead 0x400 = 0x11 ∧ t.memRead 0x401 = 0x22 ∧ t.memRead 0x402 = 0x33 ∧ t.memRead 0x403 = 0 ∧
        t.i = 0x400) = true := by decide
/-- M13. -/
theorem test_stRegs_wraps_and_increments :
    sees (State.setV (State.setV { chipQ with i := 0xFFF } 0 0xAA) 1 0xBB) 0xF155
      (fun t => t.memRead 0xFFF = 0xAA ∧ t.memRead 0 = 0xBB ∧ t.i = 1) = true := by decide
/-- M16, M17. -/
theorem test_ldRegs :
    sees (State.setV (State.storeBlock { chip with i := 0x400 } 0x400 [0x11, 0x22, 0x33, 0x44]) 3 0x99) 0xF265
      (fun t => t.getV 0 = 0x11 ∧ t.getV 1 = 0x22 ∧ t.getV 2 = 0x33 ∧ t.getV 3 = 0x99 ∧ t.i = 0x400) = true ∧
    sees (State.storeBlock { chipQ with i := 0x400 } 0x400 [0x11, 0x22, 0x33, 0x44]) 0xF265
      (fun t => t.getV 2 = 0x33 ∧ t.i = 0x403) = true := by decide
/-- M18: the range wraps at the top of memory. -/
theorem test_ldRegs_wraps :
    sees (State.storeBlock { chip with i := 0xFF8 } 0xFF8 [1, 2, 3, 4, 5, 6, 7, 8, 9, 10, 11, 12, 13, 14, 15, 16]) 0xFF65
      (fun t => t.getV 7 = 8 ∧ t.getV 8 = 9 ∧ t.getV 15 = 16 ∧ t.i = 0xFF8) = true := by decide

/-! ### Display (95_test_vectors 2.4) -/

/-- D1. -/
theorem test_cls :
    sees (State.setV { chip with fb := Framebuffer.flip chip.fb (31, 63) } 15 1) 0x00E0
      (fun t => lit t [(31, 63)] = [false] ∧ t.getV 15 = 1) = true := by decide
/-- S4: the corner sprite, clipped and wrapped. -/
theorem test_drw_corner :
    sees (State.setV (State.setV (State.storeBlock { chip with i := 0x300 } 0x300 [0xC0, 0x80]) 0 63) 1 31) 0xD012
      (fun t => lit t [(31, 63), (31, 0), (0, 63), (0, 0)] = [true, false, false, false] ∧ t.getV 15 = 0) = true ∧
    sees (State.setV (State.setV (State.storeBlock { chipQ with i := 0x300 } 0x300 [0xC0, 0x80]) 0 63) 1 31) 0xD012
      (fun t => lit t [(31, 63), (31, 0), (0, 63), (0, 0)] = [true, true, true, false] ∧ t.getV 15 = 0) = true := by decide
/-- D6, D9: a collision; `VF` as both coordinates. -/
theorem test_drw_collision :
    sees (State.setV (State.setV (State.storeBlock { chip with i := 0x300, fb := Framebuffer.flip chip.fb (3, 3) }
        0x300 [0xC0]) 0 2) 1 3) 0xD011 (fun t => lit t [(3, 2), (3, 3)] = [true, false] ∧ t.getV 15 = 1) = true ∧
    sees (State.setV (State.storeBlock { chip with i := 0x300 } 0x300 [0x80]) 15 5) 0xDFF1
      (fun t => lit t [(5, 5)] = [true] ∧ t.getV 15 = 0) = true := by decide

/-! ### Keypad, timers, events (95_test_vectors 2.5, 2.6, 2.7) -/

/-- K1, K2. -/
theorem test_skp :
    sees ((chip.keyDown 5).setV 1 5) 0xE19E (fun t => t.pc = 0x204) = true ∧
    sees ((chip.keyDown 5).setV 1 4) 0xE19E (fun t => t.pc = 0x202) = true := by decide
/-- K5, K3. -/
theorem test_sknp_low_nibble :
    sees ((chip.keyDown 5).setV 1 0xF5) 0xE19E (fun t => t.pc = 0x204) = true ∧
    sees ((chip.keyDown 5).setV 1 5) 0xE1A1 (fun t => t.pc = 0x202) = true := by decide
/-- K6. -/
theorem test_ldVxDt : sees { chip with dt := 0x2A } 0xF107 (fun t => t.getV 1 = 0x2A) = true := by decide
/-- K7. -/
theorem test_ldDtVx : sees (chip.setV 1 0x3C) 0xF115 (fun t => t.dt = 0x3C ∧ t.st = 0) = true := by decide
/-- K8. -/
theorem test_ldStVx : sees (chip.setV 1 2) 0xF118 (fun t => t.st = 2 ∧ t.dt = 0) = true := by decide
/-- K9. -/
theorem test_ldVxK_starts :
    sees chip 0xF30A (fun t => t.status = .awaitingKey 3 ∧ t.keyLatch = none ∧ t.pc = 0x200 ∧ t.cycleCtr = 1) = true := by
  decide

/-- A core that waits for a key into `V3`, its `Fx0A` at 0x200. -/
def waiting : State := State.startWait (chip.storeBlock 0x200 [0xF3, 0x0A]) 3

/-- K11 to K14: the first press wins, a release changes nothing, the next slot ends the wait. -/
theorem test_wait_first_press_wins :
    seesEvent .schedStep (((waiting.keyDown 7).keyDown 2).keyUp 7)
      (fun t => t.getV 3 = 7 ∧ t.pc = 0x202 ∧ t.status = .running ∧ t.keyLatch = none) = true := by decide
/-- K15, K16: a held key does not end the wait. -/
theorem test_wait_held_key :
    seesEvent (.keyDown 7) (State.startWait (chip.keyDown 7) 3) (fun t => t.keyLatch = none) = true := by decide
/-- K18. -/
theorem test_keyDown_running : seesEvent (.keyDown 4) chip (fun t => t.key 4 = true ∧ t.keyLatch = none) = true := by decide
/-- K19, K20: the report is of the decremented timer. -/
theorem test_tick :
    seesEvent .schedStep { atTick with dt := 1, st := 1 }
      (fun t => t.dt = 0 ∧ t.st = 0 ∧ t.report.map Report.soundActive = some false ∧ t.cycleCtr = 0) = true ∧
    seesEvent .schedStep { atTick with st := 2 }
      (fun t => t.dt = 0 ∧ t.st = 1 ∧ t.report.map Report.soundActive = some true) = true := by decide
/-- K21. -/
theorem test_tick_while_waiting :
    seesEvent .schedStep { atTick with status := .awaitingKey 3, dt := 5 } (fun t => t.dt = 4) = true := by decide
/-- X1. -/
theorem test_invalid_word :
    seesEvent .schedStep chip (fun t => t = { chip with status := .faulted .invalidOpcode }) = true := by decide
/-- X5, X7. -/
theorem test_faulted :
    step (chip.takeFault .stackOverflow) = .fault (.halted .stackOverflow) ∧
    seesEvent (.keyDown 3) (chip.takeFault .stackOverflow) (fun t => t.key 3 = true ∧ t.keyLatch = none) = true :=
  ⟨rfl, by decide⟩
/-- Z1. -/
theorem test_reset_loads :
    seesEvent (.reset Config.testVectors [0x12, 0x00]) (chip.takeFault .invalidOpcode)
      (fun t => t.memRead 0x200 = 0x12 ∧ t.memRead 0x201 = 0 ∧ t.memRead 0x050 = 0xF0 ∧ t.pc = 0x200 ∧
        t.status = .running) = true := by decide
/-- Z3, Z2: one byte too many, and the longest ROM. -/
theorem test_reset_rom_limit :
    applyEvent (.reset Config.testVectors (List.replicate 3585 1)) chip = .refused .romTooLarge ∧
    ∃ t, applyEvent (.reset Config.testVectors (List.replicate 3584 1)) chip = .next t := by
  constructor
  · rcases chip.resetWith_cases Config.testVectors (List.replicate 3585 1) with ⟨h, -⟩ | ⟨-, e⟩
    · rw [List.length_replicate] at h
      exact absurd h (by decide)
    · exact e
  · rcases chip.resetWith_cases Config.testVectors (List.replicate 3584 1) with ⟨-, e⟩ | ⟨h, -⟩
    · exact ⟨_, e⟩
    · rw [List.length_replicate] at h
      exact absurd h (by decide)

/-! ### Witnesses: for each statement with hypotheses, a state and operands that meet them, clause by clause -/

/-- The reset state with a word at 0x200. -/
def at200 (w : Nat) : State := chip.withFetchWord 16 w

/-- A core of two slots per frame that jumps to itself. -/
def looping : State :=
  State.withFetchWord (State.initial { Config.testVectors with cyclesPerFrame := 2 }) 16 0x1200

theorem test_witness_DecodedWordIsItsEncoding : decode 0xFF65 = .ok (.ldRegs 15) := by decide

theorem test_witness_WordMatchesExactlyItsRow :
    decode 0x8FFE = .ok (.shlReg 15 15) ∧
    (∃ r ∈ opcodeTable, (0x8FFE : Word) &&& r.mask = r.bits) ∧
    (∀ r ∈ opcodeTable, (0x8FFF : Word) &&& r.mask ≠ r.bits) := by decide

theorem test_witness_DecodeIsTotalAndValidByNibbles :
    wellFormedWord 0x00EE = true ∧ wellFormedWord 0x00EF = false := by decide

theorem test_witness_StepRunsDecodedInstruction :
    (at200 0x8124).RunsNext (.addReg 1 2) ∧ (∃ t, exec (.addReg 1 2) (at200 0x8124) = .next t ∧ ¬ t.Faulted) ∧
    (at200 0x00EE).RunsNext .ret ∧ (∃ t, exec .ret (at200 0x00EE) = .next t ∧ t.Faulted) :=
  ⟨⟨rfl, by decide, by decide⟩, ⟨_, rfl, fun ⟨_, h⟩ => nomatch h⟩, ⟨rfl, by decide, by decide⟩, ⟨_, rfl, _, rfl⟩⟩

theorem test_witness_InvalidWordRaisesInvalidOpcode :
    (at200 0x5AB1).status = .running ∧ (at200 0x5AB1).cycleCtr < (at200 0x5AB1).cfg.cyclesPerFrame ∧
    decode (at200 0x5AB1).fetchWord = .invalid .fiveXyN := by decide

theorem test_witness_FaultsArePrecise : ∃ t, step chip = .next t ∧ t.status = .faulted .invalidOpcode := ⟨_, rfl, rfl⟩

theorem test_witness_EachFaultHasItsOneCause :
    chip.status = .running ∧ chip.cycleCtr < chip.cfg.cyclesPerFrame ∧ decode chip.fetchWord = .invalid .zeroNnn ∧
    decode (at200 0x2ABC).fetchWord = .ok (.call 0xABC) ∧ State.sp { at200 0x2ABC with sp := 16 } = 16 ∧
    decode (at200 0x00EE).fetchWord = .ok .ret ∧ (at200 0x00EE).sp.val = 0 := by decide

theorem test_witness_FaultedHasNoEnabledStep :
    (chip.takeFault .stackUnderflow).status = .faulted .stackUnderflow ∧ ([] : List Byte).length ≤ 3584 ∧
    (List.replicate 3584 (0 : Byte)).length ≤ 3584 := ⟨rfl, by decide, Nat.le_of_eq (List.length_replicate ..)⟩

theorem test_witness_WaitSlotBlocksOrEndsTheWait :
    waiting.status = .awaitingKey 3 ∧ waiting.cycleCtr < waiting.cfg.cyclesPerFrame ∧ waiting.keyLatch = none ∧
    (waiting.keyDown 15).status = .awaitingKey 3 ∧ (waiting.keyDown 15).keyLatch = some 15 ∧
    { waiting with cycleCtr := 699 }.cycleCtr < waiting.cfg.cyclesPerFrame := by decide

theorem test_witness_TickCountsDownAndReports :
    ¬ atTick.Faulted ∧ atTick.cfg.cyclesPerFrame ≤ atTick.cycleCtr ∧
    ¬ { waiting with cycleCtr := 700 }.Faulted ∧ waiting.cfg.cyclesPerFrame ≤ 700 :=
  ⟨fun ⟨_, h⟩ => (nomatch h), by decide, fun ⟨_, h⟩ => (nomatch h), by decide⟩

theorem test_witness_FrameIsSlotsThenOneTick :
    looping.cycleCtr = 0 ∧ 2 ≤ looping.cfg.cyclesPerFrame ∧ (∃ t, stepMany 0 looping = .next t ∧ ¬ t.Faulted) ∧
    ∃ t, stepMany looping.cfg.cyclesPerFrame looping = .next t ∧ ¬ t.Faulted :=
  ⟨rfl, by decide, ⟨_, rfl, fun ⟨_, h⟩ => nomatch h⟩, ⟨_, rfl, fun ⟨_, h⟩ => nomatch h⟩⟩

theorem test_witness_BlockedCoreKeepsTicking :
    waiting.status = .awaitingKey 3 ∧ waiting.keyLatch = none ∧ waiting.cycleCtr = 0 := by decide

theorem test_witness_TimerAfterNTicks : ∃ t, QuietRun atTick 1 t ∧ t.key 5 = true :=
  ⟨_, .keyDown _ _ 5 (.tick _ _ _ .start (by decide) rfl), by decide⟩

theorem test_witness_KeyOperationsSetKeysAndLatch :
    (chip.keyDown 15).key 15 = true ∧ chip.key 0 = false ∧ waiting.key 0 = false ∧
    waiting.status = .awaitingKey 3 ∧ waiting.keyLatch = none ∧ (waiting.keyDown 7).keyLatch = some 7 ∧
    (waiting.keyDown 7).key 2 = false ∧ (∀ x, chip.status ≠ .awaitingKey x) := by decide

theorem test_witness_ResetGivesTheTableOfR41 :
    Config.wellFormed { Config.testVectors with fontBase := 432 } = true ∧
    3584 < (List.replicate 3585 (0 : Byte)).length ∧ (List.replicate 3584 (0 : Byte)).length ≤ 3584 ∧
    (∀ a ∈ [0x04F, 0x0A0, 0x1FF, 0x202, 0xFFF], a < 4096 ∧ (a < 0x050 ∨ 0x050 + 80 ≤ a) ∧ (a < 0x200 ∨ 0x200 + 2 ≤ a)) :=
  ⟨by decide, by rw [List.length_replicate]; decide, by rw [List.length_replicate], by decide⟩

theorem test_witness_RetPopsIntoPc :
    chip.sp.val = 0 ∧ State.sp { chip with sp := 1 } = (0 : Fin 16).val + 1 ∧
    State.sp { chip with sp := 16 } = (15 : Fin 16).val + 1 := by decide

theorem test_witness_CallPushesNpcAndJumps :
    State.sp { chip with sp := 16 } = 16 ∧ chip.sp.val = (0 : Fin 16).val ∧
    State.sp { chip with sp := 15 } = (15 : Fin 16).val := by decide

theorem test_witness_Skips :
    chip.getV 15 = 0 ∧ chip.getV 15 ≠ 0xFF ∧ chip.getV 1 = chip.getV 2 ∧ (chip.setV 1 9).getV 1 ≠ (chip.setV 1 9).getV 2 ∧
    (1 : Nibble) ≠ 0 ∧ (15 : Nibble) ≠ 0 := by decide

theorem test_witness_CallThenRetResumes :
    State.sp { chip with sp := 15 } < 16 ∧
    ∃ t w, exec (.call 0xFFF) { chip with sp := 15 } = .next t ∧ exec .ret t = .next w := ⟨by decide, _, _, rfl, rfl⟩

theorem test_witness_FlagInstructions : (0 : Nibble) ≠ 15 ∧ (14 : Nibble) ≠ 15 := by decide

theorem test_witness_ShiftsMoveOneBitOut :
    (if chip.cfg.shiftLegacy then chip.getV 2 else (chip.setV 1 0x81).getV 1).toNat = 0x81 ∧
    (if chipQ.cfg.shiftLegacy then (chipQ.setV 2 0x7F).getV 2 else chipQ.getV 1).toNat = 0x7F := by decide

theorem test_witness_GlyphAddressGoesToIndex :
    chip.cfg.wellFormed = true ∧ Config.wellFormed { Config.testVectors with fontBase := 0 } = true := by decide

/-- For `BcdDigitsAreStored` and `RegistersAreStored`: canonical memory, and an address outside a block that wraps. -/
theorem test_witness_Stores :
    Memory.wf (Memory.resetByte (at200 0xFF55).cfg) (at200 0xFF55).mem = true ∧
    (∀ k < 3, 0x001 % 4096 ≠ ((0xFFE : Word).toNat + k) % 4096) ∧
    (∀ k ≤ (15 : Nibble).toNat, 0x00F % 4096 ≠ ((0xFFF : Word).toNat + k) % 4096) ∧
    chip.cfg.loadStoreIncrementI = false ∧ chipQ.cfg.loadStoreIncrementI = true := by decide

theorem test_witness_RegistersAreLoaded :
    (15 : Nibble).toNat ≤ (15 : Nibble).toNat ∧ (14 : Nibble).toNat < (15 : Nibble).toNat := by decide

theorem test_witness_StoreThenLoadRestoresRegisters :
    ∃ t w t' w', exec (.stRegs 15) chip = .next t ∧ t.i = chip.i ∧ exec (.ldRegs 15) t = .next w ∧
      exec (.stRegs 15) chipQ = .next t' ∧ chipQ.cfg.loadStoreIncrementI = true ∧ t'.i = 16 ∧
      exec (.ldRegs 15) t' = .next w' := ⟨_, _, _, _, rfl, by decide, rfl, rfl, by decide, by decide, rfl⟩

/-- For its first clause under the quirk: `I` set back between the two, as by `Annn`. -/
theorem test_witness_StoreThenLoadRestoresRegisters_set_back :
    chipQ.cfg.loadStoreIncrementI = true ∧ Memory.wf (Memory.resetByte chipQ.cfg) chipQ.mem = true ∧
    ∃ t u w, exec (.stRegs 15) chipQ = .next t ∧ exec (.ldI 0) t = .next u ∧ u.mem = t.mem ∧ u.cfg = t.cfg ∧
      u.i = chipQ.i ∧ exec (.ldRegs 15) u = .next w :=
  ⟨by decide, by decide, _, _, _, rfl, rfl, rfl, rfl, by decide, rfl⟩

theorem test_witness_StoredCodeIsFetchedNext :
    Memory.wf (Memory.resetByte chip.cfg) chip.mem = true ∧ (14 : Nibble).toNat + 1 ≤ (15 : Nibble).toNat ∧
    (chip.pc.toNat + 2) % 4096 = (State.i { chip with i := 0x1F4 }).toNat + (14 : Nibble).toNat ∧
    ∃ t, exec (.stRegs 15) { chip with i := 0x1F4 } = .next t := ⟨by decide, by decide, by decide, _, rfl⟩

/-- The "0" of the font at the origin: its first row covers the pixels (0,0) to (0,3) and not (0,4). -/
def glyphZero : State := { chip with i := 0x050 }

theorem test_witness_DrwFlipsCoveredPixels :
    SpriteCovers glyphZero 0 1 5 (0, 3) ∧ ¬ SpriteCovers glyphZero 0 1 5 (0, 4) ∧
    Framebuffer.pixel (Framebuffer.flip chip.fb (0, 3)) (0, 3) = true ∧
    (∀ p, SpriteCovers glyphZero 0 1 5 p → Framebuffer.pixel glyphZero.fb p = false) := by
  refine ⟨⟨0, 3, by decide, by decide, by decide, by decide, by decide⟩, ?_, by decide, fun p _ => ?_⟩
  · rintro ⟨r, c, -, -, hb, hy, hx⟩
    have h0 : r = 0 := by
      have : (0 : Nat) = 0 + r := hy
      omega
    have h4 : c = 4 := by
      have : (4 : Nat) = 0 + c := hx
      omega
    subst h0 h4
    exact absurd hb (by decide)
  · simp [glyphZero, chip, State.initial, Framebuffer.pixel]

theorem test_witness_DrawingTwiceRestoresFramebuffer :
    ∃ t w, exec (.drw 0 1 5) glyphZero = .next t ∧ t.i = glyphZero.i ∧ t.cfg = glyphZero.cfg ∧
      (∀ a, t.memRead a = glyphZero.memRead a) ∧ t.getV 0 = glyphZero.getV 0 ∧ t.getV 1 = glyphZero.getV 1 ∧
      exec (.drw 0 1 5) t = .next w := ⟨_, _, rfl, rfl, rfl, fun _ => rfl, by decide, by decide, rfl⟩

theorem test_witness_SkipsByKeyState :
    (5 : Nibble).toNat = ((chip.setV 1 0xF5).getV 1).toNat % 16 ∧ (chip.keyDown 5).key 5 = true ∧ chip.key 5 = false := by
  decide

theorem test_witness_WaitForKeyReceivesTheFirstNewPress :
    (chip.keyDown 7).key 7 = true ∧ chip.key 7 = false ∧ chip.cycleCtr < chip.cfg.cyclesPerFrame ∧
    atTick.cfg.cyclesPerFrame ≤ atTick.cycleCtr := by decide

theorem test_witness_Inv : waiting.Inv :=
  ⟨by decide, by decide, by decide, by decide, fun h => absurd rfl (h 3), fun x h => by cases h; decide, by decide, by decide⟩

theorem test_witness_StepKeepsInv : ∃ t, waiting.Inv ∧ step (waiting.keyDown 7) = .next t ∧ step waiting = .next waiting.countSlot :=
  ⟨_, test_witness_Inv, rfl, rfl⟩

theorem test_witness_ReachableStatesHaveInv :
    ∃ t u, Reachable t ∧ t.status = .awaitingKey 3 ∧ Reachable u ∧ u.status = .running :=
  ⟨_, _, .event .schedStep _ _ (.reset chip Config.testVectors [0xF3, 0x0A] _ (by decide) rfl) rfl rfl, by decide,
    .reset chip Config.testVectors [] _ (by decide) rfl, rfl⟩

/-- A step that draws, and a reset after it that leaves the count. -/
theorem test_witness_NoDrawIsTakenTwice :
    ∃ t u, (at200 0xC10F).RunsNext (.rnd 1 0x0F) ∧ applyEvent .schedStep (at200 0xC10F) = .next t ∧ t.drawCtr = 1 ∧
      applyEvent (.reset Config.testVectors []) t = .next u ∧ u.drawCtr = 1 :=
  ⟨_, _, ⟨rfl, by decide, by decide⟩, rfl, rfl, rfl, rfl⟩

theorem test_witness_StepStopsExactlyWhenFaulted : (chip.takeFault .invalidOpcode).Faulted ∧ ¬ chip.Faulted :=
  ⟨⟨_, rfl⟩, fun ⟨_, h⟩ => nomatch h⟩

theorem test_witness_StatusTransitions :
    (∃ t, step (at200 0xFF0A) = .next t ∧ (at200 0xFF0A).status = .running ∧ t.status = .awaitingKey 15) ∧
    (∃ t, step (waiting.keyDown 7) = .next t ∧ (waiting.keyDown 7).status = .awaitingKey 3 ∧ t.status = .running) ∧
    (∃ t, applyEvent (.keyUp 7) waiting = .next t) := ⟨⟨_, rfl, rfl, rfl⟩, ⟨_, rfl, rfl, rfl⟩, ⟨_, rfl⟩⟩

theorem test_witness_OnlyClsAndDrwChangeTheFramebuffer :
    sees { glyphZero with mem := [] } 0xD015 (fun t => t.fb ≠ glyphZero.fb) = true := by decide

theorem test_witness_OnlyStoresChangeMemory :
    sees ({ chip with i := 0x300 }.setV 4 0x9C) 0xF433 (fun t => t.memRead 0x300 ≠ chip.memRead 0x300) = true := by decide

theorem test_witness_OnlyCallAndRetTouchTheStack :
    sees chip 0x2ABC (fun t => t.stack ≠ chip.stack ∧ t.sp ≠ chip.sp) = true := by decide

theorem test_witness_OnlyTicksAndTimerLoadsChangeTimers :
    sees (chip.setV 1 9) 0xF115 (fun t => t.dt ≠ chip.dt) = true ∧
    sees (chip.setV 1 9) 0xF118 (fun t => t.st ≠ chip.st) = true ∧
    chip.cycleCtr < chip.cfg.cyclesPerFrame := by decide

theorem test_witness_InstructionsWriteOnlyTheirRegisters :
    mayWrite 14 (.addReg 1 2) = false ∧ mayWrite 15 (.addReg 1 2) = true ∧ mayWrite 3 (.ldRegs 2) = false ∧
    (∃ t, exec (.addReg 1 2) chip = .next t) ∧ ∃ t, exec (.drw 1 2 3) chip = .next t :=
  ⟨by decide, by decide, by decide, ⟨_, rfl⟩, ⟨_, rfl⟩⟩

/-- For `SoundTimerIsNeverRead`, `JumpQuirkIsInert`, `StepNeverWritesKeysOrConfig`. -/
theorem test_witness_Reads :
    (∃ t, exec (.ldVxDt 1) chip = .next t) ∧ (∃ t, exec (.jpV0 0x300) chip = .next t) ∧ ∃ t, step chip = .next t :=
  ⟨⟨_, rfl⟩, ⟨_, rfl⟩, ⟨_, rfl⟩⟩

end Sys2Proof.Tests
end

section
/-! SUPPORT. The memory right after a reset (10_state R41): the ROM at 0x200, the font at `FONT_BASE`, 0 elsewhere. -/

namespace Sys2Proof.Machine

theorem Config.wellFormed_iff {cfg : Config} : cfg.wellFormed = true ↔ cfg.fontBase + 80 ≤ 0x200 := by
  simp [Config.wellFormed]

/-- The whole font is part of the reset contents, since it lies below the ROM (00_scope R8, 10_state R38). -/
theorem Memory.resetByte_font {cfg : Config} (hc : cfg.wellFormed = true) (k : Fin 80) :
    Memory.resetByte cfg (cfg.fontBase + k.val) = cfg.fontData[k] := by
  have hfont := Config.wellFormed_iff.1 hc
  have hbelow : ¬ progBase ≤ cfg.fontBase + k.val := by simp only [progBase]; omega
  simp [Memory.resetByte, hbelow]

theorem Memory.resetByte_outside_font {cfg : Config} {a : Nat} (ha : a < cfg.fontBase ∨ cfg.fontBase + 80 ≤ a) :
    Memory.resetByte cfg a = 0 := by
  have hout : ¬ (cfg.fontBase ≤ a ∧ a < cfg.fontBase + 80) := by omega
  simp [Memory.resetByte, hout]

theorem State.memRead_resetInto (s : State) (cfg : Config) {a : Nat} (ha : a < memSize) :
    (s.resetInto cfg).memRead a = Memory.resetByte cfg a := by
  simp [State.memRead, Memory.read, Nat.mod_eq_of_lt ha]

/-- Outside the ROM a reset leaves the reset contents. -/
theorem State.memRead_loaded_outside (s : State) (cfg : Config) {rom : List Byte} {a : Nat} (hl : rom.length ≤ maxRom)
    (ha : a < memSize) (hout : a < progBase ∨ progBase + rom.length ≤ a) :
    ((s.resetInto cfg).storeBlock progBase rom).memRead a = Memory.resetByte cfg a := by
  have hne : ∀ k < rom.length, a % memSize ≠ (progBase + k) % memSize := by
    simp only [memSize, progBase, maxRom] at *
    omega
  rw [State.memRead_storeBlock_outside Memory.wf_nil hne, State.memRead_resetInto s cfg ha]

/-- The ROM stands at 0x200 verbatim (70_reset_and_hazards R240). -/
theorem State.memRead_loaded_rom (s : State) (cfg : Config) {rom : List Byte} (hl : rom.length ≤ maxRom)
    (k : Fin rom.length) : ((s.resetInto cfg).storeBlock progBase rom).memRead (progBase + k.val) = rom[k] :=
  State.memRead_storeBlock_inside Memory.wf_nil (by simp only [memSize, maxRom] at *; omega) k.isLt

/-- The font stands at `FONT_BASE`, below the ROM. -/
theorem State.memRead_loaded_font (s : State) {cfg : Config} {rom : List Byte} (hc : cfg.wellFormed = true)
    (hl : rom.length ≤ maxRom) (k : Fin 80) :
    ((s.resetInto cfg).storeBlock progBase rom).memRead (cfg.fontBase + k.val) = cfg.fontData[k] := by
  have hfont := Config.wellFormed_iff.1 hc
  rw [State.memRead_loaded_outside s cfg hl (by simp only [memSize]; omega) (.inl (by simp only [progBase]; omega)),
    Memory.resetByte_font hc]

/-- Settles O19: a reset that fits answers `resetInto` with the ROM stored, whose parts are the values of the table. -/
theorem resetGivesTheTableOfR41 : Obligations.ResetGivesTheTableOfR41 := by
  intro s cfg rom hc
  obtain ⟨hl, hr⟩ | ⟨hl, hr⟩ := State.resetWith_cases s cfg rom
  · refine ⟨fun h => absurd hl (Nat.not_le.2 h), fun _ => ⟨_, hr, ?_⟩⟩
    refine ⟨fun r => ?_, rfl, rfl, rfl, fun j => ?_, rfl, rfl, fun p => ?_, fun k => ?_, rfl, rfl, rfl, rfl,
      State.memRead_loaded_rom s cfg hl, State.memRead_loaded_font s hc hl, fun a ha hfont hrom => ?_⟩
    · simp [State.getV]
    · simp
    · simp [Framebuffer.pixel]
    · simp [State.key]
    · rw [State.memRead_loaded_outside s cfg hl ha hrom, Memory.resetByte_outside_font hfont]
  · exact ⟨fun _ => hr, fun h => absurd h (Nat.not_le.2 hl)⟩

end Sys2Proof.Machine
end

section
/-! SUPPORT. The invariant of 10_state R42 over a slot that runs an instruction: every operation that an instruction is made of
keeps it. -/

namespace Sys2Proof.Machine

/-- The invariant while an instruction runs: `State.Inv` of a core that is `RUNNING`, with a slot left in the frame. No clause
of it reads the word at `PC`, so the operations may break that word. -/
structure State.RunInv (s : State) : Prop where
  index : s.i.toNat < 4096
  pc : s.pc.toNat < 4096
  stack : ∀ j : Fin stackDepth, s.stack[j].toNat < 4096
  running : s.status = .running
  latch : s.keyLatch = none
  slotLeft : s.cycleCtr < s.cfg.cyclesPerFrame
  memory : Memory.wf (Memory.resetByte s.cfg) s.mem = true
  config : s.cfg.wellFormed = true

/-- A running state with a slot left has the one invariant exactly when it has the other. -/
theorem State.runInv_iff {s : State} :
    s.RunInv ↔ s.Inv ∧ s.status = .running ∧ s.cycleCtr < s.cfg.cyclesPerFrame := by
  constructor
  · intro h
    exact ⟨⟨h.index, h.pc, h.stack, h.slotLeft.le, fun _ => h.latch, by simp [h.running], h.memory, h.config⟩,
      h.running, h.slotLeft⟩
  · rintro ⟨h, hr, hslot⟩
    exact ⟨h.index, h.pc, h.stack, hr, h.latch (by simp [hr]), hslot, h.memory, h.config⟩

namespace State.RunInv

variable {s : State} (h : s.RunInv)
include h

theorem setV (x : Nibble) (b : Byte) : (s.setV x b).RunInv := { h with }
theorem setFlagged (x : Nibble) (b f : Byte) : (s.setFlagged x b f).RunInv := { h with }
theorem setRegs (v : Vector Byte 16) : (s.setRegs v).RunInv := { h with }
theorem setDt (b : Byte) : (s.setDt b).RunInv := { h with }
theorem setSt (b : Byte) : (s.setSt b).RunInv := { h with }
theorem setFb (fb : Framebuffer) : (s.setFb fb).RunInv := { h with }
theorem consumeDraw : s.consumeDraw.RunInv := { h with }
theorem setI (w : Word) : (s.setI w).RunInv := { h with index := wrap12_lt w }
theorem setPc (w : Word) : (s.setPc w).RunInv := { h with pc := wrap12_lt w }
theorem advance : s.advance.RunInv := h.setPc _
theorem skipIf (c : Bool) : (s.skipIf c).RunInv := h.setPc _

theorem bumpIndex (x : Nibble) : (s.bumpIndex x).RunInv := by
  refine { h with index := ?_ }
  simp only [State.bumpIndex_i, State.indexAfterBlock]
  split_ifs
  · exact wrap12_lt _
  · exact h.index

theorem storeBlock (a : Nat) (bs : List Byte) : (s.storeBlock a bs).RunInv :=
  { h with memory := Memory.wf_writeBlock h.memory }

theorem push {w : Word} {t : State} (hw : w.toNat < 4096) (ht : s.push w = some t) : t.RunInv := by
  obtain ⟨-, hn⟩ | ⟨hlt, hs⟩ := s.push_cases w
  · simp [hn] at ht
  · obtain rfl := Option.some.inj (hs.symm.trans ht)
    refine { h with stack := fun j => ?_ }
    by_cases hj : s.sp.val = j.val
    · simpa [Fin.getElem_fin, hj] using hw
    · simpa [Fin.getElem_fin, Vector.getElem_set_ne, hj] using h.stack j

theorem pop {w : Word} {t : State} (ht : s.pop = some (w, t)) : t.RunInv := by
  obtain ⟨-, hn⟩ | ⟨_, _, _, hs⟩ := s.pop_cases
  · simp [hn] at ht
  · obtain ⟨-, rfl⟩ := Prod.mk.inj (Option.some.inj (hs.symm.trans ht))
    exact { h with }

/-- A fault changes `STATUS` alone, and leaves no wait behind (60_exceptions R210). -/
theorem takeFault_inv (c : FaultCause) : (s.takeFault c).Inv :=
  { (State.runInv_iff.1 h).1 with latch := fun _ => h.latch, waiting := nofun }

/-- The slot that starts a wait leaves `PC` on its `Fx0A` (44_keypad_timers R174). -/
theorem startWait_inv {x : Nibble} (hw : s.fetchWord = 0xF#4 ++ x ++ 0x0A#8) : (s.startWait x).Inv :=
  { (State.runInv_iff.1 h).1 with
    latch := fun _ => rfl
    waiting := fun y hy => by obtain rfl := Status.awaitingKey.inj hy; exact hw }

end State.RunInv

/-- What an instruction can do, from a state with the invariant: it ends with the invariant in a core still running, or raises
a fault, or starts the key wait of `Fx0A`. -/
theorem State.RunInv.exec_cases {s : State} (h : s.RunInv) (i : Instr) :
    ∃ t, exec i s = .next t ∧
      (t.RunInv ∨ (∃ c, t = s.takeFault c) ∨ ∃ x, i = .ldVxK x ∧ t = s.startWait x) := by
  cases i with
  | cls => exact ⟨_, rfl, .inl (h.setFb _).advance⟩
  | ret =>
    simp only [exec, execRet]
    split
    next top t hp => exact ⟨_, rfl, .inl ((h.pop hp).setPc top)⟩
    next => exact ⟨_, rfl, .inr (.inl ⟨_, rfl⟩)⟩
  | jp nnn => exact ⟨_, rfl, .inl (h.setPc _)⟩
  | call nnn =>
    simp only [exec, execCall]
    split
    next t hp => exact ⟨_, rfl, .inl ((h.push (wrap12_lt _) hp).setPc _)⟩
    next => exact ⟨_, rfl, .inr (.inl ⟨_, rfl⟩)⟩
  | seImm x kk => exact ⟨_, rfl, .inl (h.skipIf _)⟩
  | sneImm x kk => exact ⟨_, rfl, .inl (h.skipIf _)⟩
  | seReg x y => exact ⟨_, rfl, .inl (h.skipIf _)⟩
  | ldImm x kk => exact ⟨_, rfl, .inl (h.setV x _).advance⟩
  | addImm x kk => exact ⟨_, rfl, .inl (h.setV x _).advance⟩
  | ldReg x y => exact ⟨_, rfl, .inl (h.setV x _).advance⟩
  | orReg x y => exact ⟨_, rfl, .inl (h.setV x _).advance⟩
  | andReg x y => exact ⟨_, rfl, .inl (h.setV x _).advance⟩
  | xorReg x y => exact ⟨_, rfl, .inl (h.setV x _).advance⟩
  | addReg x y => exact ⟨_, rfl, .inl (h.setFlagged x _ _).advance⟩
  | subReg x y => exact ⟨_, rfl, .inl (h.setFlagged x _ _).advance⟩
  | shrReg x y => exact ⟨_, rfl, .inl (h.setFlagged x _ _).advance⟩
  | subnReg x y => exact ⟨_, rfl, .inl (h.setFlagged x _ _).advance⟩
  | shlReg x y => exact ⟨_, rfl, .inl (h.setFlagged x _ _).advance⟩
  | sneReg x y => exact ⟨_, rfl, .inl (h.skipIf _)⟩
  | ldI nnn => exact ⟨_, rfl, .inl (h.setI _).advance⟩
  | jpV0 nnn => exact ⟨_, rfl, .inl (h.setPc _)⟩
  | rnd x kk => exact ⟨_, rfl, .inl (h.setV x _).consumeDraw.advance⟩
  | drw x y n => exact ⟨_, rfl, .inl ((h.setFb _).setV 15 _).advance⟩
  | skp x => exact ⟨_, rfl, .inl (h.skipIf _)⟩
  | sknp x => exact ⟨_, rfl, .inl (h.skipIf _)⟩
  | ldVxDt x => exact ⟨_, rfl, .inl (h.setV x _).advance⟩
  | ldVxK x => exact ⟨_, rfl, .inr (.inr ⟨x, rfl, rfl⟩)⟩
  | ldDtVx x => exact ⟨_, rfl, .inl (h.setDt _).advance⟩
  | ldStVx x => exact ⟨_, rfl, .inl (h.setSt _).advance⟩
  | addI x => exact ⟨_, rfl, .inl (h.setI _).advance⟩
  | ldF x => exact ⟨_, rfl, .inl (h.setI _).advance⟩
  | ldB x => exact ⟨_, rfl, .inl (h.storeBlock _ _).advance⟩
  | stRegs x => exact ⟨_, rfl, .inl ((h.storeBlock _ _).bumpIndex x).advance⟩
  | ldRegs x => exact ⟨_, rfl, .inl ((h.bumpIndex x).setRegs _).advance⟩

end Sys2Proof.Machine
end

section
/-! SUPPORT. The invariant of 10_state R42 holds after a reset and is kept by every event of the spec. -/

namespace Sys2Proof.Machine

theorem decode8_ne_ldVxK (op : Word) (x : Nibble) : decode8 op ≠ .ok (.ldVxK x) := by
  dsimp only [decode8]
  repeat' split
  all_goals simp

theorem decodeF_eq_ldVxK {op : Word} {x : Nibble} (h : decodeF op = .ok (.ldVxK x)) :
    fieldX op = x ∧ fieldKK op = 0x0A := by
  dsimp only [decodeF] at h
  split at h
  · cases h
  split at h
  next hkk => exact ⟨Instr.ldVxK.inj (Decoded.ok.inj h), hkk⟩
  repeat' split at h
  all_goals cases h

/-- The fifteen other major opcodes give other instructions. -/
theorem decode_ne_ldVxK_of_major {op : Word} (ha : fieldA op ≠ 0xF) (x : Nibble) : decode op ≠ .ok (.ldVxK x) := by
  have major : ∀ a : Nibble, a ≠ 0xF →
      a ∈ [0x0#4, 0x1, 0x2, 0x3, 0x4, 0x5, 0x6, 0x7, 0x8, 0x9, 0xA, 0xB, 0xC, 0xD, 0xE] := by decide
  have hmem := major _ ha
  simp only [List.mem_cons, List.not_mem_nil, or_false] at hmem
  rcases hmem with ha | ha | ha | ha | ha | ha | ha | ha | ha | ha | ha | ha | ha | ha | ha <;>
    simp [decode, ha, decode8_ne_ldVxK, ite_eq_iff]

/-- Only `Fx0A` decodes to the key wait of `V[x]` (30_encoding R75). -/
theorem decode_eq_ldVxK {op : Word} {x : Nibble} (h : decode op = .ok (.ldVxK x)) : op = 0xF#4 ++ x ++ 0x0A#8 := by
  have ha : fieldA op = 0xF := by_contra fun hne => decode_ne_ldVxK_of_major hne x h
  have hF : decodeF op = .ok (.ldVxK x) := by simpa [decode, ha] using h
  obtain ⟨hx, hkk⟩ := decodeF_eq_ldVxK hF
  rw [word_eq_xkk op, ha, hx, hkk]
  rfl

namespace State.Inv

variable {s t : State} (h : s.Inv)
include h

theorem countSlot (hslot : s.cycleCtr < s.cfg.cyclesPerFrame) : s.countSlot.Inv := by
  obtain ⟨-, hs⟩ | ⟨-, hs⟩ := s.countSlot_cases
  · rwa [hs]
  · rw [hs]
    exact { h with cycleCtr := hslot }

theorem tick : s.timerTick.resetCycleCtr.Inv := { h with cycleCtr := Nat.zero_le _ }

theorem keyUp (k : Nibble) : (s.keyUp k).Inv := { h with }

/-- A press fills the latch only during a wait (60_exceptions R231). -/
theorem keyDown (k : Nibble) : (s.keyDown k).Inv := by
  obtain ⟨-, hs⟩ | ⟨-, hs⟩ := s.keyDown_cases k
  · rwa [hs]
  · rw [hs]
    refine { h with latch := fun hrun => ?_ }
    obtain ⟨x, hx, -⟩ | ⟨-, hl⟩ := s.latchAfterPress_cases k
    · exact absurd hx (hrun x)
    · exact hl.trans (h.latch hrun)

/-- A wait slot either waits on, or ends the wait with an empty latch (60_exceptions R204). -/
theorem waitSlot (x : Nibble) : (s.waitSlot x).Inv := by
  obtain ⟨-, hs⟩ | ⟨k, -, hs⟩ := s.waitSlot_cases x
  · rwa [hs]
  · rw [hs]
    exact { h with pc := wrap12_lt _, latch := fun _ => rfl, waiting := nofun }

/-- An execute slot keeps the invariant, and leaves the count of slots to the scheduler. -/
theorem of_execSlot (hslot : s.cycleCtr < s.cfg.cyclesPerFrame) (hx : execSlot s = .next t) :
    t.Inv ∧ t.cycleCtr < t.cfg.cyclesPerFrame := by
  obtain ⟨i, hr, hd, hi⟩ | ⟨-, hr, -, rfl⟩ | ⟨x, -, rfl⟩ := execSlot_cases hx
  · have hrun : s.RunInv := State.runInv_iff.2 ⟨h, hr, hslot⟩
    obtain ⟨u, hu, hcases⟩ := hrun.exec_cases i
    obtain rfl : u = t := Host.Outcome.next.inj (hu.symm.trans hi)
    obtain hu | ⟨c, rfl⟩ | ⟨x, rfl, rfl⟩ := hcases
    · exact ⟨(State.runInv_iff.1 hu).1, hu.slotLeft⟩
    · exact ⟨hrun.takeFault_inv c, hslot⟩
    · exact ⟨hrun.startWait_inv (decode_eq_ldVxK hd), hslot⟩
  · exact ⟨(State.runInv_iff.2 ⟨h, hr, hslot⟩).takeFault_inv _, hslot⟩
  · refine ⟨h.waitSlot x, ?_⟩
    obtain ⟨-, hs⟩ | ⟨k, -, hs⟩ := s.waitSlot_cases x
    · rwa [hs]
    · rw [hs]
      exact hslot

/-- Every step keeps the invariant: a slot, or a tick (60_exceptions R224). -/
theorem of_step (hs : step s = .next t) : t.Inv := by
  obtain ⟨-, ⟨hslot, u, hu, rfl⟩ | ⟨-, rfl⟩⟩ := step_cases hs
  · obtain ⟨hinv, hleft⟩ := h.of_execSlot hslot hu
    exact hinv.countSlot hleft
  · exact h.tick

end State.Inv

/-- A reset under a legal configuration gives the invariant, whatever was before it and whatever the ROM. -/
theorem State.inv_of_resetWith {s t : State} {cfg : Config} {rom : List Byte} (hc : cfg.wellFormed = true)
    (h : s.resetWith cfg rom = .next t) : t.Inv := by
  obtain ⟨-, hr⟩ | ⟨-, hr⟩ := s.resetWith_cases cfg rom
  · obtain rfl := Host.Outcome.next.inj (hr.symm.trans h)
    exact { index := by simp, pc := by simp [progBase], stack := fun j => by simp, cycleCtr := Nat.zero_le _,
            latch := fun _ => rfl, waiting := nofun, memory := Memory.wf_writeBlock Memory.wf_nil, config := hc }
  · cases hr.symm.trans h

/-- Every legal event keeps the invariant. -/
theorem State.Inv.of_applyEvent {s t : State} {e : Event} (h : s.Inv) (he : e.legal = true)
    (ht : applyEvent e s = .next t) : t.Inv := by
  cases e with
  | schedStep => exact h.of_step ht
  | keyDown k => exact Host.Outcome.next.inj ht ▸ h.keyDown k
  | keyUp k => exact Host.Outcome.next.inj ht ▸ h.keyUp k
  | reset cfg rom => exact State.inv_of_resetWith he ht

theorem Reachable.inv {s : State} (h : Reachable s) : s.Inv := by
  induction h with
  | reset before cfg rom s hc hs => exact State.inv_of_resetWith hc hs
  | event e s t _ he ht ih => exact ih.of_applyEvent he ht

/-- Settles O48, by the invariant `State.Inv`, which a reset gives and every event keeps. -/
theorem reachableStatesHaveInv : Obligations.ReachableStatesHaveInv := by
  intro s hs
  have h := hs.inv
  refine ⟨h.index, h.pc, h.stack, Nat.le_of_lt_succ s.sp.isLt, h.cycleCtr, h.latch, fun x hx => ?_, h.memory, h.config⟩
  rw [s.memRead_mod (s.pc.toNat + 1)]
  exact h.waiting x hx

end Sys2Proof.Machine
end

section
/-! SUPPORT. The fetched word holds its two bytes high byte first (20_memory R53, R54). -/

namespace Sys2Proof.Machine

/-- The bytes of the fetched word in memory order (20_memory R53). -/
theorem State.bytesOfWord_fetchWord (s : State) :
    bytesOfWord s.fetchWord = [s.memRead s.pc.toNat, s.memRead (s.pc.toNat + 1)] :=
  wordOfBytes_bytes _ _

/-- Settles O7: the two bytes of the fetched word are the ones read, and a read reduces its address mod 4096. -/
theorem fetchIsBigEndian : Obligations.FetchIsBigEndian := by
  intro s
  obtain ⟨hhi, hlo⟩ := List.cons_eq_cons.1 s.bytesOfWord_fetchWord
  exact ⟨hhi, (List.singleton_inj.1 hlo).trans (s.memRead_mod (s.pc.toNat + 1)).symm⟩

end Sys2Proof.Machine
end

section
/-! SUPPORT. The rows of the opcode map against the decoder (30_encoding R74): a decoded word is the encoding of its
instruction, the rows are disjoint, and a word that matches a row is well-formed. -/

namespace Sys2Proof

/-! ### What decode can do, by the major opcode -/

theorem encodeNNN_fields {op : Word} {a : Nibble} (ha : fieldA op = a) : encodeNNN a (fieldNNN op) = op :=
  ha ▸ (word_eq_nnn op).symm

theorem encodeXKK_fields {op : Word} {a : Nibble} (ha : fieldA op = a) : encodeXKK a (fieldX op) (fieldKK op) = op :=
  ha ▸ (word_eq_xkk op).symm

theorem encodeXYN_fields {op : Word} {a n : Nibble} (ha : fieldA op = a) (hn : fieldN op = n) :
    encodeXYN a (fieldX op) (fieldY op) n = op :=
  ha ▸ hn ▸ (word_eq_nibbles op).symm

/-- The minor opcodes of the nine operations of major opcode 8 (R75). -/
def minorOps : List Nibble := [0x0, 0x1, 0x2, 0x3, 0x4, 0x5, 0x6, 0x7, 0xE]

theorem mem_minorOps_iff : ∀ n : Nibble, n ∈ minorOps ↔ n.toNat ≤ 7 ∨ n = 0xE := by decide

/-- The low bytes of the nine operations of major opcode F (R75). -/
def lowByteOps : List Byte := [0x07, 0x0A, 0x15, 0x18, 0x1E, 0x29, 0x33, 0x55, 0x65]

/-- The conditions of R75, by the fields of R71. -/
theorem wellFormedWord_def (op : Word) : wellFormedWord op =
    if fieldA op = 0x0 then decide (op = 0x00E0) || decide (op = 0x00EE)
    else if fieldA op = 0x5 || fieldA op = 0x9 then decide (fieldN op = 0x0)
    else if fieldA op = 0x8 then decide ((fieldN op).toNat ≤ 7) || decide (fieldN op = 0xE)
    else if fieldA op = 0xE then decide (fieldKK op = 0x9E) || decide (fieldKK op = 0xA1)
    else if fieldA op = 0xF then lowByteOps.contains (fieldKK op)
    else true := rfl

/-- Major opcode 8: the word is the encoding of its instruction, or the minor opcode is none. -/
theorem decode8_cases (op : Word) :
    (∃ i, decode8 op = .ok i ∧ encode i = encodeXYN 0x8 (fieldX op) (fieldY op) (fieldN op)) ∨
    ((∃ e, decode8 op = .invalid e) ∧ fieldN op ∉ minorOps) := by
  by_cases hn : fieldN op ∈ minorOps
  · simp only [minorOps, List.mem_cons, List.not_mem_nil, or_false] at hn
    rcases hn with hn | hn | hn | hn | hn | hn | hn | hn | hn <;> rw [decode8, hn] <;> exact .inl ⟨_, rfl, rfl⟩
  · refine .inr ⟨⟨.eightXyN, ?_⟩, hn⟩
    simp only [minorOps, List.mem_cons, List.not_mem_nil, or_false, not_or] at hn
    simp only [decode8, hn, if_false]

/-- Major opcode F: the word is the encoding of its instruction, or the low byte selects none. -/
theorem decodeF_cases (op : Word) :
    (∃ i, decodeF op = .ok i ∧ encode i = encodeXKK 0xF (fieldX op) (fieldKK op)) ∨
    ((∃ e, decodeF op = .invalid e) ∧ fieldKK op ∉ lowByteOps) := by
  by_cases hk : fieldKK op ∈ lowByteOps
  · simp only [lowByteOps, List.mem_cons, List.not_mem_nil, or_false] at hk
    rcases hk with hk | hk | hk | hk | hk | hk | hk | hk | hk <;> rw [decodeF, hk] <;> exact .inl ⟨_, rfl, rfl⟩
  · refine .inr ⟨⟨.fXkk, ?_⟩, hk⟩
    simp only [lowByteOps, List.mem_cons, List.not_mem_nil, or_false, not_or] at hk
    simp only [decodeF, hk, if_false]

theorem nibble_cases : ∀ a : Nibble, a = 0x0 ∨ a = 0x1 ∨ a = 0x2 ∨ a = 0x3 ∨ a = 0x4 ∨ a = 0x5 ∨ a = 0x6 ∨ a = 0x7 ∨
    a = 0x8 ∨ a = 0x9 ∨ a = 0xA ∨ a = 0xB ∨ a = 0xC ∨ a = 0xD ∨ a = 0xE ∨ a = 0xF := by decide

/-- A word is the encoding of the instruction it decodes to, or it is invalid and breaks the conditions of R75. -/
theorem decode_cases (op : Word) :
    (∃ i, decode op = .ok i ∧ encode i = op) ∨ ((∃ e, decode op = .invalid e) ∧ wellFormedWord op = false) := by
  rcases nibble_cases (fieldA op) with
    ha | ha | ha | ha | ha | ha | ha | ha | ha | ha | ha | ha | ha | ha | ha | ha
  · by_cases hcls : op = 0x00E0#16
    · exact .inl ⟨.cls, hcls ▸ rfl, hcls.symm⟩
    by_cases hret : op = 0x00EE#16
    · exact .inl ⟨.ret, hret ▸ rfl, hret.symm⟩
    · exact .inr ⟨⟨.zeroNnn, by simp [decode, ha, hcls, hret]⟩, by simp [wellFormedWord_def, ha, hcls, hret]⟩
  · exact .inl ⟨.jp _, by rw [decode, ha]; rfl, encodeNNN_fields ha⟩
  · exact .inl ⟨.call _, by rw [decode, ha]; rfl, encodeNNN_fields ha⟩
  · exact .inl ⟨.seImm _ _, by rw [decode, ha]; rfl, encodeXKK_fields ha⟩
  · exact .inl ⟨.sneImm _ _, by rw [decode, ha]; rfl, encodeXKK_fields ha⟩
  · by_cases hn : fieldN op = 0x0#4
    · exact .inl ⟨.seReg _ _, by simp [decode, ha, hn], encodeXYN_fields ha hn⟩
    · exact .inr ⟨⟨.fiveXyN, by simp [decode, ha, hn]⟩, by simp [wellFormedWord_def, ha, hn]⟩
  · exact .inl ⟨.ldImm _ _, by rw [decode, ha]; rfl, encodeXKK_fields ha⟩
  · exact .inl ⟨.addImm _ _, by rw [decode, ha]; rfl, encodeXKK_fields ha⟩
  · have hd : decode op = decode8 op := by rw [decode, ha]; rfl
    obtain ⟨i, hi, henc⟩ | ⟨hinv, hn⟩ := decode8_cases op
    · exact .inl ⟨i, hd.trans hi, henc.trans (encodeXYN_fields ha rfl)⟩
    · exact .inr ⟨by rwa [hd], by simpa [wellFormedWord_def, ha] using (mem_minorOps_iff _).not.1 hn⟩
  · by_cases hn : fieldN op = 0x0#4
    · exact .inl ⟨.sneReg _ _, by simp [decode, ha, hn], encodeXYN_fields ha hn⟩
    · exact .inr ⟨⟨.nineXyN, by simp [decode, ha, hn]⟩, by simp [wellFormedWord_def, ha, hn]⟩
  · exact .inl ⟨.ldI _, by rw [decode, ha]; rfl, encodeNNN_fields ha⟩
  · exact .inl ⟨.jpV0 _, by rw [decode, ha]; rfl, encodeNNN_fields ha⟩
  · exact .inl ⟨.rnd _ _, by rw [decode, ha]; rfl, encodeXKK_fields ha⟩
  · exact .inl ⟨.drw _ _ _, by rw [decode, ha]; rfl, encodeXYN_fields ha rfl⟩
  · by_cases hskp : fieldKK op = 0x9E#8
    · exact .inl ⟨.skp _, by simp [decode, ha, hskp], hskp ▸ encodeXKK_fields ha⟩
    by_cases hsknp : fieldKK op = 0xA1#8
    · exact .inl ⟨.sknp _, by simp [decode, ha, hsknp], hsknp ▸ encodeXKK_fields ha⟩
    · exact .inr ⟨⟨.eXkk, by simp [decode, ha, hskp, hsknp]⟩, by simp [wellFormedWord_def, ha, hskp, hsknp]⟩
  · have hd : decode op = decodeF op := by rw [decode, ha]; rfl
    obtain ⟨i, hi, henc⟩ | ⟨hinv, hk⟩ := decodeF_cases op
    · exact .inl ⟨i, hd.trans hi, henc.trans (encodeXKK_fields ha)⟩
    · exact .inr ⟨by rwa [hd], by simpa [wellFormedWord_def, ha, lowByteOps] using hk⟩

/-- Each instruction has one word (R74). -/
theorem encode_of_decode {op : Word} {i : Instr} (h : decode op = .ok i) : encode i = op := by
  obtain ⟨j, hj, henc⟩ | ⟨⟨e, he⟩, -⟩ := decode_cases op
  · exact Decoded.ok.inj (hj.symm.trans h) ▸ henc
  · cases he.symm.trans h

theorem exists_decode_of_wellFormedWord {op : Word} (h : wellFormedWord op = true) : ∃ i, decode op = .ok i := by
  obtain ⟨i, hi, -⟩ | ⟨-, hf⟩ := decode_cases op
  · exact ⟨i, hi⟩
  · cases hf.symm.trans h

/-! ### The rows of the table -/

/-- Every instruction's word matches the instruction's row, which is one of the table's. -/
theorem encode_matches_row : ∀ i : Instr, Laws.RowMatch.Statement i
  | .cls => Laws.RowMatch.cls
  | .ret => Laws.RowMatch.ret
  | .jp nnn => Laws.RowMatch.jp nnn
  | .call nnn => Laws.RowMatch.call nnn
  | .seImm x kk => Laws.RowMatch.seImm x kk
  | .sneImm x kk => Laws.RowMatch.sneImm x kk
  | .seReg x y => Laws.RowMatch.seReg x y
  | .ldImm x kk => Laws.RowMatch.ldImm x kk
  | .addImm x kk => Laws.RowMatch.addImm x kk
  | .ldReg x y => Laws.RowMatch.ldReg x y
  | .orReg x y => Laws.RowMatch.orReg x y
  | .andReg x y => Laws.RowMatch.andReg x y
  | .xorReg x y => Laws.RowMatch.xorReg x y
  | .addReg x y => Laws.RowMatch.addReg x y
  | .subReg x y => Laws.RowMatch.subReg x y
  | .shrReg x y => Laws.RowMatch.shrReg x y
  | .subnReg x y => Laws.RowMatch.subnReg x y
  | .shlReg x y => Laws.RowMatch.shlReg x y
  | .sneReg x y => Laws.RowMatch.sneReg x y
  | .ldI nnn => Laws.RowMatch.ldI nnn
  | .jpV0 nnn => Laws.RowMatch.jpV0 nnn
  | .rnd x kk => Laws.RowMatch.rnd x kk
  | .drw x y n => Laws.RowMatch.drw x y n
  | .skp x => Laws.RowMatch.skp x
  | .sknp x => Laws.RowMatch.sknp x
  | .ldVxDt x => Laws.RowMatch.ldVxDt x
  | .ldVxK x => Laws.RowMatch.ldVxK x
  | .ldDtVx x => Laws.RowMatch.ldDtVx x
  | .ldStVx x => Laws.RowMatch.ldStVx x
  | .addI x => Laws.RowMatch.addI x
  | .ldF x => Laws.RowMatch.ldF x
  | .ldB x => Laws.RowMatch.ldB x
  | .stRegs x => Laws.RowMatch.stRegs x
  | .ldRegs x => Laws.RowMatch.ldRegs x

theorem row_of_decode {op : Word} {i : Instr} (h : decode op = .ok i) :
    i.row ∈ opcodeTable ∧ op &&& i.row.mask = i.row.bits := by
  obtain ⟨hmatch, hmem⟩ := encode_matches_row i
  exact ⟨hmem, encode_of_decode h ▸ hmatch⟩

/-- No two rows agree on the bits that both of them fix. -/
theorem opcodeTable_disjoint : ∀ r ∈ opcodeTable, ∀ r' ∈ opcodeTable,
    r.bits &&& r'.mask = r'.bits &&& r.mask → r = r' := by decide

theorem row_unique {op : Word} {r r' : Row} (hr : r ∈ opcodeTable) (hr' : r' ∈ opcodeTable)
    (h : op &&& r.mask = r.bits) (h' : op &&& r'.mask = r'.bits) : r = r' :=
  opcodeTable_disjoint r hr r' hr' (by rw [← h, ← h', BitVec.and_assoc, BitVec.and_assoc, BitVec.and_comm r.mask])

/-! ### A word that matches a row is well-formed

Every row's mask covers the fields that R75 reads for its major opcode, so the conditions hold of the word as they hold of
the row's bits. -/

theorem opcodeTable_bits_wellFormed : ∀ r ∈ opcodeTable, wellFormedWord r.bits = true := by decide

theorem opcodeTable_mask_covers_major : ∀ r ∈ opcodeTable, fieldA r.mask = BitVec.allOnes 4 := by decide

theorem opcodeTable_mask_covers_word : ∀ r ∈ opcodeTable, fieldA r.bits = 0x0 → r.mask = BitVec.allOnes 16 := by decide

theorem opcodeTable_mask_covers_minor : ∀ r ∈ opcodeTable,
    fieldA r.bits = 0x5 ∨ fieldA r.bits = 0x9 ∨ fieldA r.bits = 0x8 → fieldN r.mask = BitVec.allOnes 4 := by decide

theorem opcodeTable_mask_covers_low : ∀ r ∈ opcodeTable,
    fieldA r.bits = 0xE ∨ fieldA r.bits = 0xF → fieldKK r.mask = BitVec.allOnes 8 := by decide

/-- A field of the word that the row's mask covers is the field of the row's bits. -/
theorem extractLsb'_eq_of_match {op mask bits : Word} {start len : Nat} (h : op &&& mask = bits)
    (hm : mask.extractLsb' start len = BitVec.allOnes len) : op.extractLsb' start len = bits.extractLsb' start len := by
  rw [← h, BitVec.extractLsb'_and, hm, BitVec.and_allOnes]

theorem wellFormedWord_of_match {op : Word} {r : Row} (hr : r ∈ opcodeTable) (h : op &&& r.mask = r.bits) :
    wellFormedWord op = true := by
  have hA : fieldA op = fieldA r.bits := extractLsb'_eq_of_match h (opcodeTable_mask_covers_major r hr)
  have hword (ha : fieldA r.bits = 0x0) : op = r.bits := by
    rw [← h, opcodeTable_mask_covers_word r hr ha, BitVec.and_allOnes]
  have hN (ha : fieldA r.bits = 0x5 ∨ fieldA r.bits = 0x9 ∨ fieldA r.bits = 0x8) : fieldN op = fieldN r.bits :=
    extractLsb'_eq_of_match h (opcodeTable_mask_covers_minor r hr ha)
  have hKK (ha : fieldA r.bits = 0xE ∨ fieldA r.bits = 0xF) : fieldKK op = fieldKK r.bits :=
    extractLsb'_eq_of_match h (opcodeTable_mask_covers_low r hr ha)
  rw [← opcodeTable_bits_wellFormed r hr, wellFormedWord_def op, wellFormedWord_def r.bits, hA]
  split_ifs with h0 h59 h8 hE hF
  · rw [hword h0]
  · simp only [Bool.or_eq_true, decide_eq_true_eq] at h59
    rw [hN (by tauto)]
  · rw [hN (by tauto)]
  · rw [hKK (by tauto)]
  · rw [hKK (by tauto)]
  · rfl

/-- Settles O4: a decoded word is the encoding of its instruction, which matches its row; a word that matches a row is
well-formed, so it decodes, to an instruction of that row since the rows are disjoint. -/
theorem wordMatchesExactlyItsRow : Obligations.WordMatchesExactlyItsRow := by
  refine ⟨rfl, fun op i h => row_of_decode h, fun op r hr h => ?_, fun op r r' => row_unique, fun op hnone => ?_⟩
  · obtain ⟨i, hi⟩ := exists_decode_of_wellFormedWord (wellFormedWord_of_match hr h)
    obtain ⟨hmem, hmatch⟩ := row_of_decode hi
    exact ⟨i, hi, row_unique hmem hr hmatch h⟩
  · cases hd : decode op with
    | ok i =>
      obtain ⟨hmem, hmatch⟩ := row_of_decode hd
      exact absurd hmatch (hnone _ hmem)
    | invalid e => exact ⟨e, rfl⟩

end Sys2Proof
end

section
/-! SUPPORT. Decoding after encoding (30_encoding R72, R75), for the statements that name an instruction's word. -/

namespace Sys2Proof

/-- The instructions of major opcode 8 lie in the minor opcode, those of E and F in the low byte. -/
theorem decode_encode (i : Instr) : decode (encode i) = .ok i := by
  cases i with
  | cls | ret => rfl
  | jp | call | ldI | jpV0 => simp [encode, decode]
  | seImm | sneImm | ldImm | addImm | rnd => simp [encode, decode]
  | seReg | sneReg | drw => simp [encode, decode]
  | ldReg | orReg | andReg | xorReg | addReg | subReg | shrReg | subnReg | shlReg => simp [encode, decode, decode8]
  | skp | sknp => simp [encode, decode]
  | ldVxDt | ldVxK | ldDtVx | ldStVx | addI | ldF | ldB | stRegs | ldRegs => simp [encode, decode, decodeF]

theorem decode_fiveXyN {x y n : Nibble} (hn : n ≠ 0) : decode (encodeXYN 0x5 x y n) = .invalid .fiveXyN := by
  simpa [decode] using hn

theorem decode_nineXyN {x y n : Nibble} (hn : n ≠ 0) : decode (encodeXYN 0x9 x y n) = .invalid .nineXyN := by
  simpa [decode] using hn

end Sys2Proof
end

section
/-! SUPPORT. Frames (00_scope R13): what an operation leaves unchanged, and how frames compose. -/

namespace Sys2Proof.Machine

theorem Part.Same.trans {p : Part} {s t u : State} (h : p.Same s t) (h' : p.Same t u) : p.Same s u := by
  cases p
  case v => exact fun r => (h' r).trans (h r)
  case mem => exact fun a => (h' a).trans (h a)
  all_goals exact Eq.trans h' h

/-- Two changes in a row leave unchanged what neither of them changes. -/
theorem UnchangedBut.trans {c c' d : List Part} {s t u : State} (h : UnchangedBut c s t) (h' : UnchangedBut c' t u)
    (hc : c ⊆ d) (hc' : c' ⊆ d) : UnchangedBut d s u :=
  fun p hp => (h p fun hm => hp (hc hm)).trans (h' p fun hm => hp (hc' hm))

theorem State.unchangedBut_setPc (s : State) (w : Word) : UnchangedBut [.pc] s (s.setPc w) := by
  intro p hp
  cases p
  case pc => simp at hp
  case v | mem => exact fun _ => rfl
  all_goals rfl

theorem State.unchangedBut_push {s t : State} {w : Word} (h : s.push w = some t) : UnchangedBut [.stack, .sp] s t := by
  obtain ⟨-, hn⟩ | ⟨hlt, hs⟩ := s.push_cases w
  · cases hn.symm.trans h
  · obtain rfl := Option.some.inj (hs.symm.trans h)
    intro p hp
    cases p
    case stack | sp => simp at hp
    case v | mem => exact fun _ => rfl
    all_goals rfl

theorem State.unchangedBut_pop {s t : State} {w : Word} (h : s.pop = some (w, t)) : UnchangedBut [.sp] s t := by
  obtain ⟨-, hn⟩ | ⟨_, _, _, hs⟩ := s.pop_cases
  · cases hn.symm.trans h
  · obtain ⟨-, rfl⟩ := Prod.mk.inj (Option.some.inj (hs.symm.trans h))
    intro p hp
    cases p
    case sp => simp at hp
    case v | mem => exact fun _ => rfl
    all_goals rfl

end Sys2Proof.Machine
end

section
/-! SUPPORT. Control transfer (40_flow R100 to R108): calls, returns, jumps and skips. -/

namespace Sys2Proof.Machine

/-! ### CALL and RET -/

/-- `CALL` on a full stack (40_flow R102). -/
theorem exec_call_full {s : State} (h : s.sp.val = stackDepth) (nnn : Addr) :
    exec (.call nnn) s = .next (s.takeFault .stackOverflow) := by
  obtain ⟨-, hn⟩ | ⟨hlt, -⟩ := s.push_cases s.npc
  · simp [exec, execCall, hn]
  · exact absurd h hlt.ne

/-- `CALL` with a free entry: the push, and then the jump (40_flow R102). -/
theorem exec_call_push {s : State} {j : Fin stackDepth} (h : s.sp.val = j.val) (nnn : Addr) :
    ∃ u, s.push s.npc = some u ∧ exec (.call nnn) s = .next (u.setPc (absolute nnn)) ∧
      u.stack = s.stack.set j.val s.npc ∧ u.sp.val = j.val + 1 := by
  obtain ⟨hfull, -⟩ | ⟨hlt, hs⟩ := s.push_cases s.npc
  · exact absurd (hfull.symm.trans h) j.isLt.ne'
  · exact ⟨_, hs, by simp [exec, execCall, hs], by simp [h], by simp [h]⟩

/-- `RET` on an empty stack (40_flow R100). -/
theorem exec_ret_empty {s : State} (h : s.sp.val = 0) : exec .ret s = .next (s.takeFault .stackUnderflow) := by
  obtain ⟨-, hn⟩ | ⟨hpos, -⟩ := s.pop_cases
  · simp [exec, execRet, hn]
  · exact absurd h hpos.ne'

/-- `RET` with an entry in use: the pop, and then the jump to the entry (40_flow R100). -/
theorem exec_ret_pop {s : State} {j : Fin stackDepth} (h : s.sp.val = j.val + 1) :
    ∃ u, s.pop = some (s.stack[j], u) ∧ exec .ret s = .next (u.setPc s.stack[j]) ∧ u.sp.val = j.val := by
  obtain ⟨h0, -⟩ | ⟨_, _, _, hs⟩ := s.pop_cases
  · exact absurd (h0.symm.trans h) (Nat.succ_ne_zero _).symm
  · have hj : s.sp.val - 1 = j.val := by omega
    simp only [hj] at hs
    exact ⟨_, hs, by simp [exec, execRet, hs], rfl⟩

@[simp] theorem absolute_toNat (nnn : Addr) : (absolute nnn).toNat = nnn.toNat := by
  have := nnn.isLt
  simp only [absolute, BitVec.toNat_setWidth]
  omega

/-- A jump to an absolute target goes exactly there: no target is beyond 0xFFF (40_flow R101). -/
theorem State.setPc_absolute_toNat (s : State) (nnn : Addr) : (s.setPc (absolute nnn)).pc.toNat = nnn.toNat := by
  simpa using Nat.mod_eq_of_lt nnn.isLt

/-- The sum of the target and `V[0]` fits in a word, so only the write to `PC` reduces it (40_flow R103). -/
theorem State.targetV0_toNat (s : State) (nnn : Addr) : (s.targetV0 nnn).toNat = nnn.toNat + (s.getV 0).toNat := by
  have := nnn.isLt
  have := (s.getV 0).isLt
  simp only [State.targetV0, BitVec.toNat_add, BitVec.toNat_setWidth]
  omega

/-- Settles O27: the call leaves `npc` at entry `SP`, the entry that the return pops. -/
theorem callThenRetResumes : Obligations.CallThenRetResumes := by
  intro s t u w nnn hsp hcall hstack husp hret
  obtain ⟨t', -, ht, htstack, htsp⟩ := exec_call_push (j := ⟨s.sp.val, hsp⟩) rfl nnn
  obtain rfl := Host.Outcome.next.inj (ht.symm.trans hcall)
  have husp : u.sp.val = s.sp.val + 1 := by rw [husp]; exact htsp
  obtain ⟨w', -, hw, hwsp⟩ := exec_ret_pop (j := ⟨s.sp.val, hsp⟩) husp
  obtain rfl := Host.Outcome.next.inj (hw.symm.trans hret)
  refine ⟨?_, Fin.ext hwsp⟩
  simp [hstack, htstack]

/-- Settles O21, by the two outcomes of a pop. -/
theorem retPopsIntoPc : Obligations.RetPopsIntoPc := by
  refine ⟨decode_encode .ret, fun s => ⟨exec_ret_empty, fun j hj => ?_⟩⟩
  obtain ⟨u, hpop, hret, hsp⟩ := exec_ret_pop hj
  exact ⟨_, hret, by simp, hsp, (State.unchangedBut_pop hpop).trans (u.unchangedBut_setPc _) (by simp) (by simp)⟩

/-- Settles O23, by the two outcomes of a push. -/
theorem callPushesNpcAndJumps : Obligations.CallPushesNpcAndJumps := by
  refine fun s nnn => ⟨decode_encode (.call nnn), fun h => exec_call_full h nnn, fun j hj => ?_⟩
  obtain ⟨u, hpush, hcall, hstack, hsp⟩ := exec_call_push hj nnn
  refine ⟨_, hcall, ?_, fun k hk => ?_, hsp, u.setPc_absolute_toNat nnn,
    (State.unchangedBut_push hpush).trans (u.unchangedBut_setPc _) (by simp) (by simp)⟩
  · simp [hstack]
  · have hne : j.val ≠ k.val := fun e => hk (Fin.ext e.symm)
    simp [hstack, hne]

/-! ### Jumps -/

/-- Settles O22: every `nnn` is already reduced mod 4096. -/
theorem jpSetsPc : Obligations.JpSetsPc :=
  fun s nnn => ⟨decode_encode (.jp nnn), _, rfl, s.setPc_absolute_toNat nnn, s.unchangedBut_setPc _⟩

/-- Settles O24: the write to `PC` reduces the sum. -/
theorem jpV0AddsV0 : Obligations.JpV0AddsV0 :=
  fun s nnn => ⟨decode_encode (.jpV0 nnn), _, rfl, by simp [s.targetV0_toNat], s.unchangedBut_setPc _⟩

/-! ### Skips -/

/-- What a skip on a condition does, and what it leaves unchanged (40_flow R104 to R107). -/
theorem State.skipIf_decide_spec (s : State) (p : Prop) [Decidable p] :
    (p → PcSkipped s (s.skipIf p)) ∧ (¬ p → PcAdvanced s (s.skipIf p)) ∧ UnchangedBut [.pc] s (s.skipIf p) := by
  refine ⟨fun h => ?_, fun h => ?_, s.unchangedBut_setPc _⟩
  · rw [PcSkipped, State.skipIf_pc_toNat, decide_eq_true h, if_pos rfl]
  · rw [PcAdvanced, State.skipIf_pc_toNat, decide_eq_false h, if_neg Bool.false_ne_true]

/-- Settles O25: each skip is `State.skipIf` on its condition. -/
theorem skipsAgainstAByte : Obligations.SkipsAgainstAByte := by
  intro s x kk
  obtain ⟨hskip, hnext, hframe⟩ := s.skipIf_decide_spec (s.getV x ≠ kk)
  exact ⟨decode_encode (.seImm x kk), decode_encode (.sneImm x kk), ⟨_, rfl, s.skipIf_decide_spec (s.getV x = kk)⟩,
    ⟨_, rfl, hskip, fun h => hnext (not_not_intro h), hframe⟩⟩

/-- Settles O26: each skip is `State.skipIf` on its condition; the decoder asks for a zero low nibble. -/
theorem skipsOfTwoRegisters : Obligations.SkipsOfTwoRegisters := by
  intro s x y
  obtain ⟨hskip, hnext, hframe⟩ := s.skipIf_decide_spec (s.getV x ≠ s.getV y)
  exact ⟨decode_encode (.seReg x y), decode_encode (.sneReg x y), fun n hn => ⟨decode_fiveXyN hn, decode_nineXyN hn⟩,
    ⟨_, rfl, s.skipIf_decide_spec (s.getV x = s.getV y)⟩, ⟨_, rfl, hskip, fun h => hnext (not_not_intro h), hframe⟩⟩

end Sys2Proof.Machine
end

section
/-! SUPPORT. No rule reads `jump_with_v0_quirk` (10_state R39, 40_flow R103): every operation commutes with setting it. -/

namespace Sys2Proof.Machine

/-- The same state under the other setting of the inert quirk. -/
def State.withJumpQuirk (s : State) (b : Bool) : State := { s with cfg := { s.cfg with jumpWithV0Quirk := b } }

theorem State.push_withJumpQuirk (s : State) (b : Bool) (w : Word) :
    (s.withJumpQuirk b).push w = (s.push w).map (·.withJumpQuirk b) := by
  obtain ⟨hfull, hn⟩ | ⟨hlt, hs⟩ := s.push_cases w
  · rw [hn]
    exact dif_neg hfull.not_lt
  · rw [hs]
    exact dif_pos hlt

theorem State.pop_withJumpQuirk (s : State) (b : Bool) :
    (s.withJumpQuirk b).pop = s.pop.map fun p => (p.1, p.2.withJumpQuirk b) := by
  obtain ⟨hempty, hn⟩ | ⟨hpos, _, _, hs⟩ := s.pop_cases
  · rw [hn]
    exact dif_neg hempty.not_gt
  · rw [hs]
    exact dif_pos hpos

/-- Only `CALL` and `RET` ask the state whether they can go on. Every other arm gives its next state at once, and what it reads
of the configuration are other fields, so the two next states are the same by definition. -/
theorem exec_withJumpQuirk {i : Instr} {s t : State} (b : Bool) (h : exec i s = .next t) :
    exec i (s.withJumpQuirk b) = .next (t.withJumpQuirk b) := by
  cases i with
  | ret =>
    simp only [exec, execRet, State.pop_withJumpQuirk] at h ⊢
    cases hp : s.pop with
    | none => rw [hp] at h; cases h; rfl
    | some p => rw [hp] at h; cases h; rfl
  | call nnn =>
    have hnpc : (s.withJumpQuirk b).npc = s.npc := rfl
    simp only [exec, execCall, hnpc, State.push_withJumpQuirk] at h ⊢
    cases hp : s.push s.npc with
    | none => rw [hp] at h; cases h; rfl
    | some u => rw [hp] at h; cases h; rfl
  | _ => exact Host.Outcome.next.inj h ▸ rfl

/-- Settles O60, by `exec_withJumpQuirk`. -/
theorem jumpQuirkIsInert : Obligations.JumpQuirkIsInert :=
  fun _ _ _ b h => exec_withJumpQuirk b h

end Sys2Proof.Machine
end

section
/-! SUPPORT. Registers, flags and the next instruction (41_alu R120 to R132): an instruction of this family writes `V[x]`, some
also `VF` after it, and goes to `npc`. -/

namespace Sys2Proof.Machine

/-! ### What a write of registers, a draw and going on leave unchanged -/

theorem State.unchangedBut_setV (s : State) (x : Nibble) (b : Byte) : UnchangedBut [.v] s (s.setV x b) := by
  intro p hp
  cases p
  case v => simp at hp
  case mem => exact fun _ => rfl
  all_goals rfl

theorem State.unchangedBut_setFlagged (s : State) (x : Nibble) (b f : Byte) :
    UnchangedBut [.v] s (s.setFlagged x b f) :=
  (s.unchangedBut_setV x b).trans ((s.setV x b).unchangedBut_setV 15 f) (by simp) (by simp)

theorem State.unchangedBut_consumeDraw (s : State) : UnchangedBut [.drawCtr] s s.consumeDraw := by
  intro p hp
  cases p
  case drawCtr => simp at hp
  case v | mem => exact fun _ => rfl
  all_goals rfl

/-- Going to `npc` adds `PC` to what may have changed. -/
theorem UnchangedBut.advance {c d : List Part} {s t : State} (h : UnchangedBut c s t) (hc : c ⊆ d) (hpc : .pc ∈ d) :
    UnchangedBut d s t.advance :=
  h.trans (t.unchangedBut_setPc t.npc) hc (by simpa using hpc)

theorem State.regsUnchangedBut_setV (s : State) (x : Nibble) (b : Byte) : RegsUnchangedBut [x] s (s.setV x b) := by
  intro r hr
  rw [State.getV_setV, if_neg (by simpa using hr)]

theorem State.regsUnchangedBut_setFlagged (s : State) (x : Nibble) (b f : Byte) :
    RegsUnchangedBut [x, 15] s (s.setFlagged x b f) := by
  intro r hr
  obtain ⟨hx, h15⟩ : r ≠ x ∧ r ≠ 15 := by simpa using hr
  rw [State.getV_setFlagged, if_neg h15, if_neg hx]

/-! ### Write registers and go on -/

/-- `V[x]` is written and the next instruction follows; `VF` is a register like any other here (10_state R23). -/
theorem State.setV_advance_spec (s : State) (x : Nibble) (b : Byte) :
    (s.setV x b).advance.getV x = b ∧ RegsUnchangedBut [x] s (s.setV x b).advance ∧
      PcAdvanced s (s.setV x b).advance ∧ UnchangedBut [.v, .pc] s (s.setV x b).advance :=
  ⟨by simp [State.getV_setV], s.regsUnchangedBut_setV x b, State.advance_pcAdvanced s _ rfl,
    (s.unchangedBut_setV x b).advance (by simp) (by simp)⟩

/-- A result and then its flag are written, given by their numbers, and the next instruction follows: on `VF` the flag wins
(10_state R22). -/
theorem State.setFlagged_advance_spec (s : State) (x : Nibble) {b f : Byte} {n m : Nat} (hb : b.toNat = n)
    (hf : f.toNat = m) :
    (x ≠ 15 → ((s.setFlagged x b f).advance.getV x).toNat = n) ∧ ((s.setFlagged x b f).advance.getV 15).toNat = m ∧
      RegsUnchangedBut [x, 15] s (s.setFlagged x b f).advance ∧ PcAdvanced s (s.setFlagged x b f).advance ∧
      UnchangedBut [.v, .pc] s (s.setFlagged x b f).advance := by
  refine ⟨fun hx => ?_, ?_, s.regsUnchangedBut_setFlagged x b f, State.advance_pcAdvanced s _ rfl,
    (s.unchangedBut_setFlagged x b f).advance (by simp) (by simp)⟩
  · rw [State.advance_getV, State.getV_setFlagged, if_neg hx, if_pos rfl, hb]
  · rw [State.advance_getV, State.getV_setFlagged, if_pos rfl, hf]

/-! ### Flags and results as numbers -/

@[simp] theorem flagByte_toNat (c : Bool) : (flagByte c).toNat = c.toNat := by cases c <;> rfl

theorem carryFlag_toNat (a b : Byte) : (carryFlag a b).toNat = if a.toNat + b.toNat > 255 then 1 else 0 :=
  (flagByte_toNat _).trans (Bool.cond_decide ..)

/-- NOT borrow: the minuend is at least the subtrahend (R127, R129). -/
theorem notBorrowFlag_toNat (a b : Byte) : (notBorrowFlag a b).toNat = if a.toNat ≥ b.toNat then 1 else 0 :=
  (flagByte_toNat _).trans (Bool.cond_decide ..)

/-- Bit `i` of a byte, as a flag. -/
theorem flagByte_getLsbD_toNat (b : Byte) (i : Nat) : (flagByte (b.getLsbD i)).toNat = b.toNat / 2 ^ i % 2 :=
  (flagByte_toNat _).trans (Nat.toNat_testBit b.toNat i)

theorem lowBitFlag_toNat (b : Byte) : (lowBitFlag b).toNat = b.toNat % 2 := by
  rw [lowBitFlag, flagByte_getLsbD_toNat, pow_zero, Nat.div_one]

/-- Nothing is above bit 7. -/
theorem highBitFlag_toNat (b : Byte) : (highBitFlag b).toNat = b.toNat / 128 := by
  have := b.isLt
  rw [highBitFlag, flagByte_getLsbD_toNat]
  omega

theorem toNat_sub_byte (a b : Byte) : (a - b).toNat = (a.toNat + 256 - b.toNat) % 256 := by
  have := b.isLt
  rw [BitVec.toNat_sub]
  omega

theorem toNat_shiftRight_one (b : Byte) : (b >>> 1).toNat = b.toNat / 2 := Nat.shiftRight_one _

theorem toNat_shiftLeft_one (b : Byte) : (b <<< 1).toNat = b.toNat * 2 % 256 := by
  rw [BitVec.toNat_shiftLeft, Nat.shiftLeft_eq]

/-! ### The statements -/

/-- Settles O28: both write `V[x]` alone. -/
theorem loadAndAddAByte : Obligations.LoadAndAddAByte := by
  intro s x kk
  obtain ⟨hsum, hframe⟩ := s.setV_advance_spec x (s.getV x + kk)
  exact ⟨decode_encode (.ldImm x kk), decode_encode (.addImm x kk), ⟨_, rfl, s.setV_advance_spec x kk⟩,
    ⟨_, rfl, by rw [hsum, BitVec.toNat_add], hframe⟩⟩

/-- Settles O29: all four write `V[x]` alone. -/
theorem assignAndLogicOfTwoRegisters : Obligations.AssignAndLogicOfTwoRegisters := by
  intro s x y
  obtain ⟨hor, hor_frame⟩ := s.setV_advance_spec x (s.getV x ||| s.getV y)
  obtain ⟨hand, hand_frame⟩ := s.setV_advance_spec x (s.getV x &&& s.getV y)
  obtain ⟨hxor, hxor_frame⟩ := s.setV_advance_spec x (s.getV x ^^^ s.getV y)
  exact ⟨decode_encode (.ldReg x y), decode_encode (.orReg x y), decode_encode (.andReg x y),
    decode_encode (.xorReg x y), ⟨_, rfl, s.setV_advance_spec x (s.getV y)⟩,
    ⟨_, rfl, fun b => by rw [hor, BitVec.getLsbD_or], hor_frame⟩,
    ⟨_, rfl, fun b => by rw [hand, BitVec.getLsbD_and], hand_frame⟩,
    ⟨_, rfl, fun b => by rw [hxor, BitVec.getLsbD_xor], hxor_frame⟩⟩

/-- Settles O30: the sum with its carry. -/
theorem addSetsSumAndCarry : Obligations.AddSetsSumAndCarry :=
  fun s x y => ⟨decode_encode (.addReg x y), _, rfl,
    s.setFlagged_advance_spec x (BitVec.toNat_add _ _) (carryFlag_toNat _ _)⟩

/-- Settles O31: each is a difference with its NOT borrow, SUBN with the operands swapped. -/
theorem subtractionsSetDifferenceAndNotBorrow : Obligations.SubtractionsSetDifferenceAndNotBorrow :=
  fun s x y => ⟨decode_encode (.subReg x y), decode_encode (.subnReg x y),
    ⟨_, rfl, s.setFlagged_advance_spec x (toNat_sub_byte _ _) (notBorrowFlag_toNat _ _)⟩,
    ⟨_, rfl, s.setFlagged_advance_spec x (toNat_sub_byte _ _) (notBorrowFlag_toNat _ _)⟩⟩

/-- Settles O32: each shifts `State.shiftSource`, and its flag is the bit that falls out. -/
theorem shiftsMoveOneBitOut : Obligations.ShiftsMoveOneBitOut := by
  rintro s x y _ rfl
  exact ⟨decode_encode (.shrReg x y), decode_encode (.shlReg x y),
    ⟨_, rfl, s.setFlagged_advance_spec x (toNat_shiftRight_one _) (lowBitFlag_toNat _)⟩,
    ⟨_, rfl, s.setFlagged_advance_spec x (toNat_shiftLeft_one _) (highBitFlag_toNat _)⟩⟩

/-- Settles O33: a bit of the masked byte is a bit of the mask, whatever byte `Config.draw8` gives. -/
theorem rndMasksAFreeByte : Obligations.RndMasksAFreeByte := by
  intro s x kk
  have hx : (s.setV x (s.drawByte &&& kk)).consumeDraw.advance.getV x = s.drawByte &&& kk := by
    simp [State.getV_setV]
  have hframe : UnchangedBut [.v, .drawCtr] s (s.setV x (s.drawByte &&& kk)).consumeDraw :=
    (s.unchangedBut_setV x _).trans (State.unchangedBut_consumeDraw _) (by simp) (by simp)
  refine ⟨decode_encode (.rnd x kk), _, rfl, hx, fun b hb => ?_, rfl, s.regsUnchangedBut_setV x _,
    State.advance_pcAdvanced s _ rfl, hframe.advance (by simp) (by simp)⟩
  rw [hx, BitVec.getLsbD_and, Bool.and_eq_true] at hb
  exact hb.2

end Sys2Proof.Machine
end

section
/-! SUPPORT. The index register and memory transfers (42_index_memory R140 to R147): an instruction of this family writes `I`,
or moves a block of bytes between the registers and memory and may step `I` over it, and goes to `npc`. -/

namespace Sys2Proof.Machine

/-! ### What a write of `I`, a block store and a block load leave unchanged -/

/-- Both operations that write `I` change that field alone. -/
theorem State.unchangedBut_index (s : State) (w : Word) : UnchangedBut [.i] s { s with i := w } := by
  intro p hp
  cases p
  case i => simp at hp
  case v | mem => exact fun _ => rfl
  all_goals rfl

theorem State.unchangedBut_setI (s : State) (w : Word) : UnchangedBut [.i] s (s.setI w) :=
  s.unchangedBut_index (wrap12 w)

theorem State.unchangedBut_bumpIndex (s : State) (x : Nibble) : UnchangedBut [.i] s (s.bumpIndex x) :=
  s.unchangedBut_index (s.indexAfterBlock x)

theorem State.unchangedBut_storeBlock (s : State) (a : Nat) (bs : List Byte) :
    UnchangedBut [.mem] s (s.storeBlock a bs) := by
  intro p hp
  cases p
  case mem => simp at hp
  case v => exact fun _ => rfl
  all_goals rfl

theorem State.unchangedBut_setRegs (s : State) (v : Vector Byte 16) : UnchangedBut [.v] s (s.setRegs v) := by
  intro p hp
  cases p
  case v => simp at hp
  case mem => exact fun _ => rfl
  all_goals rfl

/-! ### Writes of `I` -/

/-- `I` is written, given by its number mod 4096, and the next instruction follows. -/
theorem State.setI_advance_spec (s : State) {w : Word} {n : Nat} (hw : w.toNat % 4096 = n) :
    (s.setI w).advance.i.toNat = n ∧ PcAdvanced s (s.setI w).advance ∧ UnchangedBut [.i, .pc] s (s.setI w).advance :=
  ⟨by simp [hw], State.advance_pcAdvanced s _ rfl, (s.unchangedBut_setI w).advance (by simp) (by simp)⟩

@[simp] theorem State.digit_toNat (s : State) (x : Nibble) : (s.digit x).toNat = (s.getV x).toNat % 16 :=
  BitVec.toNat_setWidth ..

/-- Every glyph lies in the font, and a legal font lies below 0x200 (00_scope R8, 42_index_memory R142). -/
theorem State.glyphAddress_lt {s : State} (hc : s.cfg.wellFormed = true) (x : Nibble) :
    s.cfg.fontBase + 5 * ((s.getV x).toNat % 16) < 0x200 := by
  have := Config.wellFormed_iff.1 hc
  omega

theorem State.glyphAddress_toNat {s : State} (hc : s.cfg.wellFormed = true) (x : Nibble) :
    (s.glyphAddress x).toNat = s.cfg.fontBase + 5 * ((s.getV x).toNat % 16) := by
  have := State.glyphAddress_lt hc x
  rw [State.glyphAddress, State.digit_toNat, BitVec.toNat_ofNat]
  omega

/-- Where `I` goes over a block (42_index_memory R145, R146). -/
theorem State.indexAfterBlock_spec (s : State) (x : Nibble) :
    (s.cfg.loadStoreIncrementI = true → (s.indexAfterBlock x).toNat = (s.i.toNat + x.toNat + 1) % 4096) ∧
      (s.cfg.loadStoreIncrementI = false → s.indexAfterBlock x = s.i) := by
  refine ⟨fun h => ?_, fun h => by simp [State.indexAfterBlock, h]⟩
  have hx : (x.zeroExtend 16 : Word).toNat = x.toNat := BitVec.toNat_setWidth_of_le (by decide)
  have h1 : (1 : Word).toNat = 1 := rfl
  rw [State.indexAfterBlock, if_pos h, wrap12_toNat, BitVec.toNat_add, BitVec.toNat_add, hx, h1]
  omega

/-! ### Bytes of memory -/

/-- Reading depends on an address only mod 4096 (20_memory R50). -/
theorem State.memRead_congr (s : State) {a b : Nat} (h : a % 4096 = b % 4096) : s.memRead a = s.memRead b := by
  rw [← s.memRead_mod a, ← s.memRead_mod b, h]

/-- Element `k` of the block at `I`. -/
theorem State.memRead_ea (s : State) (k : Nat) : s.memRead (s.ea k) = s.memRead (s.i.toNat + k) :=
  s.memRead_mod _

theorem State.memRead_eq_of_mem_eq {s t : State} (hmem : t.mem = s.mem) (hcfg : t.cfg = s.cfg) (a : Nat) :
    t.memRead a = s.memRead a := by
  rw [State.memRead, State.memRead, hmem, hcfg]

@[simp] theorem State.length_regsUpTo (s : State) (x : Nibble) : (s.regsUpTo x).length = x.toNat + 1 := by
  simp [State.regsUpTo]

theorem State.getElem_regsUpTo (s : State) (x k : Nibble) (hk : k.toNat < (s.regsUpTo x).length) :
    (s.regsUpTo x)[k.toNat] = s.getV k := by
  simp [State.regsUpTo]

/-! ### The statements about `I` -/

/-- Settles O34: the sum fits in a word or loses a multiple of 4096. -/
theorem indexLoadAndAdd : Obligations.IndexLoadAndAdd := by
  intro s x nnn
  have hload : (absolute nnn).toNat % 4096 = nnn.toNat := by
    rw [absolute_toNat, Nat.mod_eq_of_lt nnn.isLt]
  have hadd : (s.i + (s.getV x).zeroExtend 16).toNat % 4096 = (s.i.toNat + (s.getV x).toNat) % 4096 := by
    simp only [BitVec.toNat_add, BitVec.toNat_setWidth]
    omega
  exact ⟨decode_encode (.ldI nnn), decode_encode (.addI x), ⟨_, rfl, s.setI_advance_spec hload⟩,
    ⟨_, rfl, s.setI_advance_spec hadd⟩⟩

/-- Settles O35: the glyph's address is below 0x200, so the write to `I` does not reduce it. -/
theorem glyphAddressGoesToIndex : Obligations.GlyphAddressGoesToIndex := by
  intro s x hc
  have hlt := State.glyphAddress_lt hc x
  have hglyph : (s.glyphAddress x).toNat % 4096 = s.cfg.fontBase + 5 * ((s.getV x).toNat % 16) := by
    rw [State.glyphAddress_toNat hc, Nat.mod_eq_of_lt (by omega)]
  obtain ⟨hi, hframe⟩ := s.setI_advance_spec hglyph
  exact ⟨decode_encode (.ldF x), _, rfl, hi, hi ▸ hlt, hframe⟩

/-! ### The statements about memory transfers -/

/-- Settles O36: a block of three bytes is stored. -/
theorem bcdDigitsAreStored : Obligations.BcdDigitsAreStored := by
  intro s x hm
  have hdigit {k : Nat} (hk : k < 3) :
      ((s.storeBlock s.i.toNat (bcdDigits (s.getV x))).advance.memRead (s.i.toNat + k)).toNat =
        ((bcdDigits (s.getV x))[k]'hk).toNat :=
    congrArg BitVec.toNat (State.memRead_storeBlock_inside (bs := bcdDigits (s.getV x)) hm (show 3 ≤ memSize by decide) hk)
  refine ⟨decode_encode (.ldB x), _, rfl, (hdigit (k := 0) (by decide)).trans ?_, (hdigit (k := 1) (by decide)).trans ?_,
    (hdigit (k := 2) (by decide)).trans ?_, fun a ha => State.memRead_storeBlock_outside hm ha,
    State.advance_pcAdvanced s _ rfl, (s.unchangedBut_storeBlock _ _).advance (by simp) (by simp)⟩
  · simp [bcdDigits]
  · simp [bcdDigits]
  · simp [bcdDigits]

/-- Settles O37: the registers are stored as one block, and `I` is moved after it. -/
theorem registersAreStored : Obligations.RegistersAreStored := by
  intro s x hm
  have hlen : (s.regsUpTo x).length ≤ memSize := by
    have := x.isLt
    simp only [State.length_regsUpTo, memSize]
    omega
  obtain ⟨hstep, hstay⟩ := s.indexAfterBlock_spec x
  have hframe : UnchangedBut [.mem, .i] s ((s.storeBlock s.i.toNat (s.regsUpTo x)).bumpIndex x) :=
    (s.unchangedBut_storeBlock _ _).trans (State.unchangedBut_bumpIndex _ x) (by simp) (by simp)
  refine ⟨decode_encode (.stRegs x), _, rfl, fun k hk => ?_, fun a ha => ?_, hstep, hstay,
    State.advance_pcAdvanced s _ rfl, hframe.advance (by simp) (by simp)⟩
  · have hk : k.toNat < (s.regsUpTo x).length := by simpa [Nat.lt_succ_iff] using hk
    exact (State.memRead_storeBlock_inside hm hlen hk).trans (s.getElem_regsUpTo x k hk)
  · exact State.memRead_storeBlock_outside hm fun k hk => ha k (by simpa [Nat.lt_succ_iff] using hk)

/-- Settles O38: `I` is moved, but the registers are read from where it was before. -/
theorem registersAreLoaded : Obligations.RegistersAreLoaded := by
  intro s x
  have hget (k : Nibble) : ((s.bumpIndex x).setRegs (s.regsLoaded x)).advance.getV k =
      if k.toNat ≤ x.toNat then s.memRead (s.i.toNat + k.toNat) else s.getV k := by
    rw [State.advance_getV, State.getV_setRegs_regsLoaded, State.memRead_ea]
  obtain ⟨hstep, hstay⟩ := s.indexAfterBlock_spec x
  have hframe : UnchangedBut [.i, .v] s ((s.bumpIndex x).setRegs (s.regsLoaded x)) :=
    (s.unchangedBut_bumpIndex x).trans (State.unchangedBut_setRegs _ _) (by simp) (by simp)
  exact ⟨decode_encode (.ldRegs x), _, rfl, fun k hk => (hget k).trans (if_pos hk),
    fun k hk => (hget k).trans (if_neg hk.not_ge), hstep, hstay, State.advance_pcAdvanced s _ rfl,
    hframe.advance (by simp) (by simp)⟩

/-- Settles O39, from what a store and a load do (O37, O38): with `I` set back the load reads the stored bytes; with `I` left
after them it reads the next `x + 1` bytes, which the store has not touched. -/
theorem storeThenLoadRestoresRegisters : Obligations.StoreThenLoadRestoresRegisters := by
  intro s t u w x hm hstore hmem hcfg hload
  obtain ⟨-, t', ht, hstored, houtside, hindex_store, -, -, hframe⟩ := registersAreStored s x hm
  obtain rfl := Host.Outcome.next.inj (ht.symm.trans hstore)
  obtain ⟨-, w', hw, hloaded, -, hindex_load, hindex_kept, -, -⟩ := registersAreLoaded u x
  obtain rfl := Host.Outcome.next.inj (hw.symm.trans hload)
  have hcfg_s : u.cfg = s.cfg := hcfg.trans (hframe .cfg (by simp))
  have hread := State.memRead_eq_of_mem_eq hmem hcfg
  rw [hcfg_s] at hindex_load hindex_kept
  refine ⟨fun hi => ?_, fun hq hi k hk => ?_⟩
  · rw [hi] at hloaded hindex_load hindex_kept
    exact ⟨fun k hk => by rw [hloaded k hk, hread, hstored k hk], hindex_load, hindex_kept⟩
  · have hti := hindex_store hq
    have hkeep : t'.memRead (t'.i.toNat + k.toNat) = s.memRead (t'.i.toNat + k.toNat) :=
      houtside _ fun j hj => by
        have := x.isLt
        omega
    rw [hloaded k hk, hread, hi, hkeep]
    exact s.memRead_congr (by omega)

end Sys2Proof.Machine
end

section
/-! SUPPORT. The display (43_display R160 to R162): clearing it, and drawing a sprite onto it once and twice. -/

namespace Sys2Proof.Machine

theorem State.unchangedBut_setFb (s : State) (fb : Framebuffer) : UnchangedBut [.fb] s (s.setFb fb) := by
  intro p hp
  cases p
  case fb => simp at hp
  case v | mem => exact fun _ => rfl
  all_goals rfl

@[simp] theorem Framebuffer.pixel_clear (p : Pixel) : Framebuffer.pixel Framebuffer.clear p = false := by
  simp [Framebuffer.pixel, Framebuffer.clear]

theorem flagByte_eq_one_iff {c : Bool} : flagByte c = 1 ↔ c = true := by cases c <;> decide

theorem flagByte_eq_zero_or_one (c : Bool) : flagByte c = 0 ∨ flagByte c = 1 := by cases c <;> decide

/-! ### The covered pixels -/

/-- Where a pixel lands: reduced when wrapping, on the screen or nowhere when clipping. -/
theorem placePixel_eq_some_iff {w : Bool} {py px : Nat} {p : Pixel} :
    placePixel w py px = some p ↔
      if w then p.1.val = py % 32 ∧ p.2.val = px % 64 else p.1.val = py ∧ p.2.val = px := by
  obtain ⟨⟨row, hrow⟩, ⟨column, hcolumn⟩⟩ := p
  cases w
  · simp only [placePixel, Bool.false_eq_true, if_false]
    split_ifs with hon
    · simp [eq_comm]
    · simp only [false_iff]
      omega
  · simp [placePixel, Fin.ext_iff, Fin.ofNat, eq_comm]

/-- The pixels that the model flips are those that R161 says the sprite covers. -/
theorem State.mem_spritePixels_iff_spriteCovers {s : State} {x y n : Nibble} {p : Pixel} :
    p ∈ s.spritePixels x y n ↔ SpriteCovers s x y n p := by
  simp only [State.mem_spritePixels, SpriteCovers, placePixel_eq_some_iff, State.memRead_ea, spriteBit,
    State.originRow, State.originColumn]
  constructor
  · rintro ⟨r, hr, c, hc, hbit, hplace⟩
    exact ⟨r, c, hr, hc, hbit, hplace⟩
  · rintro ⟨r, c, hr, hc, hbit, hplace⟩
    exact ⟨r, hr, c, hc, hbit, hplace⟩

/-- What a sprite covers depends on the index, the configuration, memory and the two coordinates alone. -/
theorem spriteCovers_congr {s u : State} {x y : Nibble} (hi : u.i = s.i) (hcfg : u.cfg = s.cfg)
    (hread : ∀ a, u.memRead a = s.memRead a) (hx : u.getV x = s.getV x) (hy : u.getV y = s.getV y) (n : Nibble)
    (p : Pixel) : SpriteCovers u x y n p ↔ SpriteCovers s x y n p := by
  simp only [SpriteCovers, hi, hcfg, hread, hx, hy]

/-! ### One draw -/

/-- What a draw does to the pixels and to `VF` (43_display R161). -/
theorem exec_drw_spec {s t : State} {x y n : Nibble} (h : exec (.drw x y n) s = .next t) :
    (∀ p, SpriteCovers s x y n p → Framebuffer.pixel t.fb p = !Framebuffer.pixel s.fb p) ∧
    (∀ p, ¬ SpriteCovers s x y n p → Framebuffer.pixel t.fb p = Framebuffer.pixel s.fb p) ∧
    (t.getV 15 = 0 ∨ t.getV 15 = 1) ∧
    (t.getV 15 = 1 ↔ ∃ p, SpriteCovers s x y n p ∧ Framebuffer.pixel s.fb p = true) := by
  obtain rfl := Host.Outcome.next.inj h
  obtain ⟨hpixel, hcollision⟩ := s.drawSprite_spec x y n
  simp only [State.mem_spritePixels_iff_spriteCovers] at hcollision
  simp only [State.advance_fb, State.setV_fb, State.setFb_fb, State.advance_getV, State.getV_setV, if_true, hpixel]
  refine ⟨fun p hp => ?_, fun p hp => ?_, flagByte_eq_zero_or_one _, flagByte_eq_one_iff.trans hcollision⟩
  · simp [State.mem_spritePixels_iff_spriteCovers, hp]
  · simp [State.mem_spritePixels_iff_spriteCovers, hp]

/-- A draw writes the framebuffer and `VF`, and goes to the next instruction. -/
theorem exec_drw_frame {s t : State} {x y n : Nibble} (h : exec (.drw x y n) s = .next t) :
    RegsUnchangedBut [15] s t ∧ PcAdvanced s t ∧ UnchangedBut [.fb, .v, .pc] s t := by
  obtain rfl := Host.Outcome.next.inj h
  have hframe := (s.unchangedBut_setFb (s.drawSprite x y n).1).trans (d := [.fb, .v])
    (State.unchangedBut_setV _ 15 (flagByte (s.drawSprite x y n).2)) (by simp) (by simp)
  exact ⟨(s.setFb _).regsUnchangedBut_setV 15 _, State.advance_pcAdvanced s _ rfl, hframe.advance (by simp) (by simp)⟩

/-! ### The statements -/

/-- Settles O42, by what a draw does and what it leaves unchanged. -/
theorem drwFlipsCoveredPixels : Obligations.DrwFlipsCoveredPixels := by
  intro s x y n
  obtain ⟨t, ht⟩ : ∃ t, exec (.drw x y n) s = .next t := ⟨_, rfl⟩
  obtain ⟨hflip, hkeep, hbit, hcollision⟩ := exec_drw_spec ht
  refine ⟨decode_encode (.drw x y n), t, ht, hflip, hkeep, hcollision.2, fun hunset => ?_, exec_drw_frame ht⟩
  refine hbit.resolve_right fun h1 => ?_
  obtain ⟨p, hp, hset⟩ := hcollision.1 h1
  exact Bool.false_ne_true ((hunset p hp).symm.trans hset)

/-- Settles O43: both draws cover the same pixels, so the second flips each of them back, and finds set exactly those
that were unset before the first. -/
theorem drawingTwiceRestoresFramebuffer : Obligations.DrawingTwiceRestoresFramebuffer := by
  intro s t u w x y n hdraw hfb hi hcfg hread hx hy hredraw
  obtain ⟨hflip, hkeep, hbit, hcollision⟩ := exec_drw_spec hdraw
  obtain ⟨hflip', hkeep', hbit', hcollision'⟩ := exec_drw_spec hredraw
  simp only [spriteCovers_congr hi hcfg hread hx hy, hfb] at hflip' hkeep' hcollision'
  refine ⟨Framebuffer.ext_pixel fun p => ?_, hbit, hbit', hcollision, ?_⟩
  · by_cases hp : SpriteCovers s x y n p
    · rw [hflip' p hp, hflip p hp, Bool.not_not]
    · rw [hkeep' p hp, hkeep p hp]
  · refine hcollision'.trans (exists_congr fun p => and_congr_right fun hp => ?_)
    rw [hflip p hp, Bool.not_eq_true']

/-- Settles O41: the clear framebuffer replaces the old one. -/
theorem clsUnsetsEveryPixel : Obligations.ClsUnsetsEveryPixel :=
  ⟨decode_encode .cls, fun s => ⟨_, rfl, Framebuffer.pixel_clear, State.advance_pcAdvanced s _ rfl,
    (s.unchangedBut_setFb _).advance (by simp) (by simp)⟩⟩

end Sys2Proof.Machine
end

section
/-! SUPPORT. Keypad and timers (44_keypad_timers R170 to R177): key skips, timer loads, what changes a timer over a run, and the
key wait from its start to its end. -/

namespace Sys2Proof.Machine

/-! ### What an operation leaves unchanged -/

theorem UnchangedBut.refl (c : List Part) (s : State) : UnchangedBut c s s := by
  intro p _
  cases p
  case v | mem => exact fun _ => rfl
  all_goals rfl

theorem State.unchangedBut_setDt (s : State) (b : Byte) : UnchangedBut [.dt] s (s.setDt b) := by
  intro p hp
  cases p
  case dt => simp at hp
  case v | mem => exact fun _ => rfl
  all_goals rfl

theorem State.unchangedBut_setSt (s : State) (b : Byte) : UnchangedBut [.st] s (s.setSt b) := by
  intro p hp
  cases p
  case st => simp at hp
  case v | mem => exact fun _ => rfl
  all_goals rfl

theorem State.unchangedBut_status_keyLatch (s : State) (c : Status) (l : Option Nibble) :
    UnchangedBut [.status, .keyLatch] s { s with status := c, keyLatch := l } := by
  intro p hp
  cases p
  case status | keyLatch => simp at hp
  case v | mem => exact fun _ => rfl
  all_goals rfl

theorem State.unchangedBut_startWait (s : State) (x : Nibble) : UnchangedBut [.status, .keyLatch] s (s.startWait x) :=
  s.unchangedBut_status_keyLatch _ _

theorem State.unchangedBut_waitSlot (s : State) (x : Nibble) :
    UnchangedBut [.v, .pc, .status, .keyLatch] s (s.waitSlot x) := by
  obtain ⟨-, hs⟩ | ⟨k, -, hs⟩ := s.waitSlot_cases x
  · rw [hs]
    exact .refl _ s
  · rw [hs]
    exact ((s.unchangedBut_setV x _).advance (d := [.v, .pc]) (by simp) (by simp)).trans
      (State.unchangedBut_status_keyLatch _ _ _) (by simp) (by simp)

theorem State.unchangedBut_keyDown (s : State) (k : Nibble) : UnchangedBut [.keys, .keyLatch] s (s.keyDown k) := by
  obtain ⟨-, hs⟩ | ⟨-, hs⟩ := s.keyDown_cases k
  · rw [hs]
    exact .refl _ s
  · rw [hs]
    intro p hp
    cases p
    case keys | keyLatch => simp at hp
    case v | mem => exact fun _ => rfl
    all_goals rfl

theorem State.unchangedBut_countSlot (s : State) : UnchangedBut [.cycleCtr] s s.countSlot := by
  obtain ⟨-, hs⟩ | ⟨-, hs⟩ := s.countSlot_cases
  · rw [hs]
    exact .refl _ s
  · rw [hs]
    intro p hp
    cases p
    case cycleCtr => simp at hp
    case v | mem => exact fun _ => rfl
    all_goals rfl

/-! ### Skips by a key's level -/

/-- The key that `Ex9E` and `ExA1` test is the low nibble of `V[x]` (R170). -/
theorem State.digit_eq_of_toNat {s : State} {x k : Nibble} (h : k.toNat = (s.getV x).toNat % 16) : s.digit x = k :=
  BitVec.eq_of_toNat_eq (by rw [State.digit_toNat, h])

/-- `State.skipIf_decide_spec` for a condition that is a value of the machine. -/
theorem State.skipIf_spec (s : State) (c : Bool) :
    (c = true → PcSkipped s (s.skipIf c)) ∧ (c = false → PcAdvanced s (s.skipIf c)) ∧
      UnchangedBut [.pc] s (s.skipIf c) := by
  simpa using s.skipIf_decide_spec (c = true)

/-- Settles O44: `Ex9E` skips on the level of the key, `ExA1` on its negation. -/
theorem skipsByKeyState : Obligations.SkipsByKeyState := by
  intro s x k hk
  obtain ⟨hskip, hnext, hframe⟩ := s.skipIf_spec (!s.key k)
  obtain rfl := State.digit_eq_of_toNat hk
  exact ⟨decode_encode (.skp x), decode_encode (.sknp x), ⟨_, rfl, s.skipIf_spec (s.key (s.digit x))⟩,
    ⟨_, rfl, fun h => hskip (by rw [h]; rfl), fun h => hnext (by rw [h]; rfl), hframe⟩⟩

/-! ### Timer loads -/

/-- Settles O45: each of the three writes its one destination and goes on. -/
theorem timerLoads : Obligations.TimerLoads := fun s x =>
  ⟨decode_encode (.ldVxDt x), decode_encode (.ldDtVx x), decode_encode (.ldStVx x),
    ⟨_, rfl, s.setV_advance_spec x s.dt⟩,
    ⟨_, rfl, rfl, State.advance_pcAdvanced s _ rfl, (s.unchangedBut_setDt _).advance (by simp) (by simp)⟩,
    ⟨_, rfl, rfl, State.advance_pcAdvanced s _ rfl, (s.unchangedBut_setSt _).advance (by simp) (by simp)⟩⟩

/-! ### What changes a timer -/

/-- Only `Fx15` writes `DT`, and only `Fx18` writes `ST` (10_state R30, R31). -/
theorem exec_changes_timer {i : Instr} {s t : State} (h : exec i s = .next t) :
    (t.dt ≠ s.dt → ∃ x, i = .ldDtVx x) ∧ (t.st ≠ s.st → ∃ x, i = .ldStVx x) := by
  cases i with
  | ldDtVx x =>
    obtain rfl := Host.Outcome.next.inj h
    exact ⟨fun _ => ⟨x, rfl⟩, (absurd rfl ·)⟩
  | ldStVx x =>
    obtain rfl := Host.Outcome.next.inj h
    exact ⟨(absurd rfl ·), fun _ => ⟨x, rfl⟩⟩
  | call nnn =>
    obtain ⟨-, hp⟩ | ⟨_, hp⟩ := s.push_cases s.npc
    all_goals
      simp only [exec, execCall, hp] at h
      obtain rfl := Host.Outcome.next.inj h
      exact ⟨(absurd rfl ·), (absurd rfl ·)⟩
  | ret =>
    obtain ⟨-, hp⟩ | ⟨_, _, _, hp⟩ := s.pop_cases
    all_goals
      simp only [exec, execRet, hp] at h
      obtain rfl := Host.Outcome.next.inj h
      exact ⟨(absurd rfl ·), (absurd rfl ·)⟩
  | _ =>
    obtain rfl := Host.Outcome.next.inj h
    exact ⟨(absurd rfl ·), (absurd rfl ·)⟩

/-- A slot changes a timer only by running the instruction that writes it. -/
theorem step_slot_changes_timer {s t : State} (h : step s = .next t) (hslot : s.cycleCtr < s.cfg.cyclesPerFrame) :
    (t.dt ≠ s.dt → ∃ x, s.RunsNext (.ldDtVx x)) ∧ (t.st ≠ s.st → ∃ x, s.RunsNext (.ldStVx x)) := by
  obtain ⟨-, ⟨-, u, hu, rfl⟩ | ⟨htick, -⟩⟩ := step_cases h
  · have hdt : u.countSlot.dt = u.dt := u.unchangedBut_countSlot .dt (by simp)
    have hst : u.countSlot.st = u.st := u.unchangedBut_countSlot .st (by simp)
    rw [hdt, hst]
    obtain ⟨i, hrun, hdec, hexec⟩ | ⟨-, -, -, rfl⟩ | ⟨x, -, rfl⟩ := execSlot_cases hu
    · have runs {j : Instr} (hi : i = j) : s.RunsNext j := ⟨hrun, hslot, hi ▸ hdec⟩
      obtain ⟨hdt, hst⟩ := exec_changes_timer hexec
      exact ⟨fun hne => (hdt hne).imp fun _ => runs, fun hne => (hst hne).imp fun _ => runs⟩
    · exact ⟨(absurd rfl ·), (absurd rfl ·)⟩
    · have hframe := s.unchangedBut_waitSlot x
      exact ⟨(absurd (hframe .dt (by simp)) ·), (absurd (hframe .st (by simp)) ·)⟩
  · exact absurd hslot htick.not_gt

/-- A step with no slot left in the frame takes one from each timer, which stops at 0 (60_exceptions R220). -/
theorem step_tick_timers {s t : State} (h : step s = .next t) (htick : s.cfg.cyclesPerFrame ≤ s.cycleCtr) :
    t.dt.toNat = s.dt.toNat - 1 ∧ t.st.toNat = s.st.toNat - 1 := by
  obtain ⟨-, ⟨hslot, -⟩ | ⟨-, rfl⟩⟩ := step_cases h
  · exact absurd hslot htick.not_gt
  · exact ⟨countDown_toNat s.dt, countDown_toNat s.st⟩

/-- Over a stretch of a run with `n` ticks and no timer write, each timer goes down by `n` and stops at 0: only the ticks
count. -/
theorem QuietRun.timers {s t : State} {n : Nat} (h : QuietRun s n t) :
    t.dt.toNat = s.dt.toNat - n ∧ t.st.toNat = s.st.toNat - n := by
  induction h with
  | start => exact ⟨rfl, rfl⟩
  | slot n t u _ hslot hdt hst hstep ih =>
    obtain ⟨hdt', hst'⟩ := step_slot_changes_timer hstep hslot
    rwa [not_ne_iff.1 fun hne => (hdt' hne).elim hdt, not_ne_iff.1 fun hne => (hst' hne).elim hst]
  | tick n t u _ htick hstep ih =>
    obtain ⟨hdt, hst⟩ := step_tick_timers hstep htick
    omega
  | keyDown n t k _ ih =>
    have hdt : (t.keyDown k).dt = t.dt := t.unchangedBut_keyDown k .dt (by simp)
    have hst : (t.keyDown k).st = t.st := t.unchangedBut_keyDown k .st (by simp)
    rwa [hdt, hst]
  | keyUp n t k _ ih => exact ih

/-- Settles O17, by `QuietRun.timers`; the subtraction there is the natural one, which stops at 0. -/
theorem timerAfterNTicks : Obligations.TimerAfterNTicks := by
  intro s t n h
  obtain ⟨hdt, hst⟩ := h.timers
  omega

/-! ### The key wait -/

/-- The first press of a released key in a wait fills the latch (60_exceptions R231). -/
theorem State.keyDown_keyLatch_of_waiting {s : State} {x k : Nibble} (hs : s.status = .awaitingKey x)
    (hl : s.keyLatch = none) (hk : s.key k = false) : (s.keyDown k).keyLatch = some k := by
  obtain ⟨hk', -⟩ | ⟨-, hd⟩ := s.keyDown_cases k
  · exact absurd (hk.symm.trans hk') Bool.false_ne_true
  obtain ⟨-, -, -, hfill⟩ | ⟨hfull, -⟩ := s.latchAfterPress_cases k
  · rw [hd]; exact hfill
  · exact absurd hl (hfull x hs)

/-- A full latch keeps its key over any press (60_exceptions R231). -/
theorem State.keyDown_keyLatch_of_full {s : State} {l : Nibble} (hl : s.keyLatch = some l) (k : Nibble) :
    (s.keyDown k).keyLatch = some l := by
  obtain ⟨-, hd⟩ | ⟨-, hd⟩ := s.keyDown_cases k
  · rw [hd, hl]
  obtain ⟨-, -, hempty, -⟩ | ⟨-, hkeep⟩ := s.latchAfterPress_cases k
  · cases hl.symm.trans hempty
  · rw [hd]; exact hkeep.trans hl

/-- A slot of a waiting core is a wait slot (60_exceptions R201). -/
theorem execSlot_of_waiting {s : State} {x : Nibble} (hs : s.status = .awaitingKey x) :
    execSlot s = .next (s.waitSlot x) := by
  simp only [execSlot, hs]

/-- While the latch is empty, a slot of a waiting core changes nothing (60_exceptions R204). -/
theorem execSlot_of_waiting_empty {s : State} {x : Nibble} (hs : s.status = .awaitingKey x) (hl : s.keyLatch = none) :
    execSlot s = .next s := by
  obtain ⟨-, hw⟩ | ⟨k, hk, -⟩ := s.waitSlot_cases x
  · rw [execSlot_of_waiting hs, hw]
  · cases hl.symm.trans hk

/-- With a key in the latch, a slot of a waiting core ends the wait (60_exceptions R204). -/
theorem execSlot_of_waiting_full {s : State} {x k : Nibble} (hs : s.status = .awaitingKey x) (hl : s.keyLatch = some k) :
    ∃ w, execSlot s = .next w ∧ w.getV x = k.zeroExtend 8 ∧ RegsUnchangedBut [x] s w ∧ PcAdvanced s w ∧
      w.status = .running ∧ w.keyLatch = none ∧ UnchangedBut [.v, .pc, .status, .keyLatch] s w := by
  obtain ⟨hempty, -⟩ | ⟨k', hk', hw⟩ := s.waitSlot_cases x
  · cases hl.symm.trans hempty
  obtain rfl := Option.some.inj (hl.symm.trans hk')
  obtain ⟨hreg, hregs, hpc, -⟩ := s.setV_advance_spec x (k.zeroExtend 8)
  exact ⟨_, (execSlot_of_waiting hs).trans (congrArg _ hw), hreg, hregs, hpc, rfl, rfl, hw ▸ s.unchangedBut_waitSlot x⟩

theorem State.not_faulted_of_waiting {s : State} {x : Nibble} (hs : s.status = .awaitingKey x) : ¬ s.Faulted :=
  fun ⟨_, hc⟩ => nomatch hs.symm.trans hc

/-- A slot of a waiting core with an empty latch is counted, and that is all (60_exceptions R204, R224). -/
theorem step_of_waiting_empty {s : State} {x : Nibble} (hs : s.status = .awaitingKey x) (hl : s.keyLatch = none)
    (hslot : s.cycleCtr < s.cfg.cyclesPerFrame) : step s = .next { s with cycleCtr := s.cycleCtr + 1 } := by
  have hf := State.not_faulted_of_waiting hs
  have hcount := s.countSlot_cases.resolve_left fun h => hf h.1
  rw [step_of_not_faulted hf, if_pos hslot, execSlot_of_waiting_empty hs hl, countOutcome, hcount.2]

/-- With no slot left in the frame, a core that is not faulted ticks, waiting or not (60_exceptions R224). -/
theorem step_of_frame_end {s : State} (hf : ¬ s.Faulted) (htick : s.cfg.cyclesPerFrame ≤ s.cycleCtr) :
    step s = .next s.timerTick.resetCycleCtr := by
  rw [step_of_not_faulted hf, if_neg htick.not_gt]

/-- The first press after `Fx0A`, then any other press: the first key is what the next slot writes (R174). -/
theorem State.first_press_ends_wait (s : State) (x k j : Nibble) (hk : s.key k = false) :
    ∃ w, execSlot (((s.startWait x).keyDown k).keyDown j) = .next w ∧ w.getV x = k.zeroExtend 8 ∧
      RegsUnchangedBut [x] s w ∧ PcAdvanced s w ∧ w.status = .running ∧ w.keyLatch = none ∧
      UnchangedBut [.v, .pc, .keys, .status, .keyLatch] s w := by
  have hpress := ((s.startWait x).unchangedBut_keyDown k).trans (State.unchangedBut_keyDown _ j)
    (d := [.keys, .keyLatch]) (by simp) (by simp)
  have hbefore := (s.unchangedBut_startWait x).trans hpress (d := [.keys, .status, .keyLatch]) (by simp) (by simp)
  have hlatch := State.keyDown_keyLatch_of_full (State.keyDown_keyLatch_of_waiting (s.startWait_status x) rfl hk) j
  obtain ⟨w, hw, hreg, hregs, hpc, hrun, hempty, hafter⟩ :=
    execSlot_of_waiting_full (hpress .status (by simp)) hlatch
  refine ⟨w, hw, hreg, fun r hr => (hregs r hr).trans (hbefore .v (by simp) r), ?_, hrun, hempty,
    hbefore.trans hafter (by simp) (by simp)⟩
  have hpc' : (((s.startWait x).keyDown k).keyDown j).pc = s.pc := hbefore .pc (by simp)
  rwa [PcAdvanced, hpc'] at hpc

/-- Settles O46. A release and the press of a held key leave the latch empty, so the wait goes on; a press of a released key
ends it as `State.first_press_ends_wait` says. -/
theorem waitForKeyReceivesTheFirstNewPress : Obligations.WaitForKeyReceivesTheFirstNewPress := by
  intro s x
  have hs : (s.startWait x).status = .awaitingKey x := s.startWait_status x
  have hl : (s.startWait x).keyLatch = none := s.startWait_keyLatch x
  have hblocked := execSlot_of_waiting_empty hs hl
  refine ⟨decode_encode (.ldVxK x), s.startWait x, rfl, rfl, hblocked, step_of_waiting_empty hs hl,
    step_of_frame_end (State.not_faulted_of_waiting hs), fun k => ⟨_, rfl, ?_⟩, fun k hk => ⟨_, rfl, ?_⟩,
    fun k j hk => ?_⟩
  · exact execSlot_of_waiting_empty (s := (s.startWait x).keyUp k) hs hl
  · obtain ⟨-, hd⟩ | ⟨hup, -⟩ := (s.startWait x).keyDown_cases k
    · rwa [hd]
    · cases hk.symm.trans hup
  · obtain ⟨w, hw⟩ := s.first_press_ends_wait x k j hk
    exact ⟨_, _, w, rfl, rfl, hw⟩

end Sys2Proof.Machine
end

section
/-! SUPPORT. Faults (60_exceptions R210 to R215): each fault is raised exactly by its cause, and changes `STATUS` alone. -/

namespace Sys2Proof.Machine

/-! ### The step of a slot -/

theorem State.not_faulted_of_running {s : State} (hs : s.status = .running) : ¬ s.Faulted :=
  fun ⟨_, hc⟩ => nomatch hs.symm.trans hc

/-- With a slot left in the frame, the step of a core that is not faulted is that slot, counted unless it faults
(60_exceptions R224). -/
theorem step_of_execSlot {s u : State} (hf : ¬ s.Faulted) (hslot : s.cycleCtr < s.cfg.cyclesPerFrame)
    (hu : execSlot s = .next u) : step s = .next u.countSlot := by
  rw [step_of_not_faulted hf, if_pos hslot, hu, countOutcome]

/-- A slot of a running core runs the instruction it fetches (60_exceptions R201). -/
theorem execSlot_of_decoded {s : State} {i : Instr} (hs : s.status = .running) (hd : decode s.fetchWord = .ok i) :
    execSlot s = exec i s := by
  simp only [execSlot, hs, hd]

/-- A slot of a running core with an invalid word raises `InvalidOpcode` (60_exceptions R211). -/
theorem execSlot_of_invalid {s : State} {e : DecodeError} (hs : s.status = .running)
    (hd : decode s.fetchWord = .invalid e) : execSlot s = .next (s.takeFault .invalidOpcode) := by
  simp only [execSlot, hs, hd]

/-! ### The causes -/

/-- The cause of each fault, in a slot that runs: the fetched word and the call stack (60_exceptions R211 to R213). -/
def State.CauseOf (s : State) : FaultCause → Prop
  | .invalidOpcode => ∃ e, decode s.fetchWord = .invalid e
  | .stackOverflow => ∃ nnn, decode s.fetchWord = .ok (.call nnn) ∧ s.sp.val = 16
  | .stackUnderflow => decode s.fetchWord = .ok .ret ∧ s.sp.val = 0

/-- What an instruction does to `STATUS`: `CALL` and `RET` may raise their fault, `Fx0A` starts the key wait, and nothing else
writes it (10_state R33). -/
theorem exec_status_cases {i : Instr} {s t : State} (h : exec i s = .next t) :
    (∃ nnn, i = .call nnn ∧ s.sp.val = stackDepth ∧ t = s.takeFault .stackOverflow) ∨
    (i = .ret ∧ s.sp.val = 0 ∧ t = s.takeFault .stackUnderflow) ∨
    (∃ x, i = .ldVxK x ∧ t = s.startWait x) ∨ t.status = s.status := by
  cases i with
  | call nnn =>
    obtain ⟨hfull, -⟩ | ⟨_, hp⟩ := s.push_cases s.npc
    · exact .inl ⟨nnn, rfl, hfull, Host.Outcome.next.inj (h.symm.trans (exec_call_full hfull nnn))⟩
    · simp only [exec, execCall, hp] at h
      exact .inr (.inr (.inr (Host.Outcome.next.inj h ▸ rfl)))
  | ret =>
    obtain ⟨hempty, -⟩ | ⟨_, _, _, hp⟩ := s.pop_cases
    · exact .inr (.inl ⟨rfl, hempty, Host.Outcome.next.inj (h.symm.trans (exec_ret_empty hempty))⟩)
    · simp only [exec, execRet, hp] at h
      exact .inr (.inr (.inr (Host.Outcome.next.inj h ▸ rfl)))
  | ldVxK x => exact .inr (.inr (.inl ⟨x, rfl, (Host.Outcome.next.inj h).symm⟩))
  | _ => exact .inr (.inr (.inr (Host.Outcome.next.inj h ▸ rfl)))

/-! ### A cause raises its fault -/

theorem execSlot_of_causeOf {s : State} {c : FaultCause} (hs : s.status = .running) (hc : s.CauseOf c) :
    execSlot s = .next (s.takeFault c) := by
  cases c with
  | invalidOpcode =>
    obtain ⟨e, hd⟩ := hc
    exact execSlot_of_invalid hs hd
  | stackOverflow =>
    obtain ⟨nnn, hd, hsp⟩ := hc
    exact (execSlot_of_decoded hs hd).trans (exec_call_full hsp nnn)
  | stackUnderflow =>
    obtain ⟨hd, hsp⟩ := hc
    exact (execSlot_of_decoded hs hd).trans (exec_ret_empty hsp)

/-- The slot that raises a fault is the whole step: it is not counted (60_exceptions R224). -/
theorem step_of_causeOf {s : State} {c : FaultCause} (hs : s.status = .running)
    (hslot : s.cycleCtr < s.cfg.cyclesPerFrame) (hc : s.CauseOf c) : step s = .next (s.takeFault c) :=
  step_of_execSlot (State.not_faulted_of_running hs) hslot (execSlot_of_causeOf hs hc)

/-! ### A fault was raised by its cause -/

/-- A slot that ends `FAULTED` did so by one `takeFault`, for a cause that was there. -/
theorem execSlot_faulted {s t : State} {c : FaultCause} (h : execSlot s = .next t) (ht : t.status = .faulted c) :
    s.CauseOf c ∧ t = s.takeFault c := by
  obtain ⟨i, hs, hd, hexec⟩ | ⟨e, -, hd, rfl⟩ | ⟨x, hs, rfl⟩ := execSlot_cases h
  · obtain ⟨nnn, rfl, hsp, rfl⟩ | ⟨rfl, hsp, rfl⟩ | ⟨x, -, rfl⟩ | hsame := exec_status_cases hexec
    · obtain rfl := Status.faulted.inj ht
      exact ⟨⟨nnn, hd, hsp⟩, rfl⟩
    · obtain rfl := Status.faulted.inj ht
      exact ⟨⟨hd, hsp⟩, rfl⟩
    · cases ht
    · cases (hs.symm.trans hsame.symm).trans ht
  · obtain rfl := Status.faulted.inj ht
    exact ⟨⟨e, hd⟩, rfl⟩
  · obtain ⟨-, hw⟩ | ⟨k, -, hw⟩ := s.waitSlot_cases x
    · cases (hs.symm.trans (congrArg State.status hw).symm).trans ht
    · cases (congrArg State.status hw).symm.trans ht

/-- A step that ends `FAULTED` is a slot that raised the fault: a tick writes no `STATUS`. -/
theorem step_faulted {s t : State} {c : FaultCause} (h : step s = .next t) (ht : t.status = .faulted c) :
    s.CauseOf c ∧ t = s.takeFault c := by
  obtain ⟨hf, ⟨-, u, hu, rfl⟩ | ⟨-, rfl⟩⟩ := step_cases h
  · obtain ⟨-, hcount⟩ | ⟨hu', hcount⟩ := u.countSlot_cases
    · rw [hcount] at ht ⊢
      exact execSlot_faulted hu ht
    · rw [hcount] at ht
      exact absurd ⟨c, ht⟩ hu'
  · exact absurd ⟨c, ht⟩ hf

/-- In a slot of a running core, each fault is raised exactly when its cause is there. -/
theorem step_faulted_iff {s : State} (hs : s.status = .running) (hslot : s.cycleCtr < s.cfg.cyclesPerFrame)
    (c : FaultCause) : (∃ t, step s = .next t ∧ t.status = .faulted c) ↔ s.CauseOf c :=
  ⟨fun ⟨_, h, ht⟩ => (step_faulted h ht).1, fun hc => ⟨_, step_of_causeOf hs hslot hc, s.takeFault_status c⟩⟩

/-- Settles O9: an invalid word is the cause of `InvalidOpcode`. -/
theorem invalidWordRaisesInvalidOpcode : Obligations.InvalidWordRaisesInvalidOpcode :=
  fun _ e hs hslot hd => step_of_causeOf (c := .invalidOpcode) hs hslot ⟨e, hd⟩

/-- Settles O10, by `step_faulted`: every fault is raised by `State.takeFault`. -/
theorem faultsArePrecise : Obligations.FaultsArePrecise :=
  fun _ _ _ h ht => (step_faulted h ht).2

/-- Settles O11, by `step_faulted_iff` for each of the three faults. -/
theorem eachFaultHasItsOneCause : Obligations.EachFaultHasItsOneCause := fun _ hs hslot =>
  ⟨step_faulted_iff hs hslot .invalidOpcode, step_faulted_iff hs hslot .stackOverflow,
    step_faulted_iff hs hslot .stackUnderflow⟩

end Sys2Proof.Machine
end

section
/-! SUPPORT. The key operations (60_exceptions R231), and that a faulted core answers to them and to a reset alone (R205). -/

namespace Sys2Proof.Machine

/-- The keys after one key is written. -/
theorem State.key_of_keys_set {s t : State} {k : Nibble} {b : Bool} (h : t.keys = s.keys.set k.toNat b k.isLt) :
    t.key k = b ∧ ∀ j, j ≠ k → t.key j = s.key j := by
  refine ⟨by simp [State.key, h], fun j hj => ?_⟩
  have hne : k.toNat ≠ j.toNat := fun e => hj (BitVec.eq_of_toNat_eq e.symm)
  simp [State.key, h, hne]

/-- A press of a released key sets it. -/
theorem State.keyDown_keys_of_released {s : State} {k : Nibble} (hk : s.key k = false) :
    (s.keyDown k).keys = s.keys.set k.toNat true k.isLt := by
  obtain ⟨hk', -⟩ | ⟨-, hd⟩ := s.keyDown_cases k
  · cases hk.symm.trans hk'
  · rw [hd]

/-- A press of a held key is no edge. -/
theorem State.keyDown_of_held {s : State} {k : Nibble} (hk : s.key k = true) : s.keyDown k = s := by
  obtain ⟨-, hd⟩ | ⟨hk', -⟩ := s.keyDown_cases k
  · exact hd
  · cases hk'.symm.trans hk

/-- Outside a wait, no press touches the latch. -/
theorem State.keyDown_keyLatch_of_not_waiting {s : State} (hs : ∀ x, s.status ≠ .awaitingKey x) (k : Nibble) :
    (s.keyDown k).keyLatch = s.keyLatch := by
  obtain ⟨-, hd⟩ | ⟨-, hd⟩ := s.keyDown_cases k
  · rw [hd]
  obtain ⟨x, hx, -⟩ | ⟨-, hkeep⟩ := s.latchAfterPress_cases k
  · exact absurd hx (hs x)
  · rw [hd]; exact hkeep

theorem State.unchangedBut_keyUp (s : State) (k : Nibble) : UnchangedBut [.keys] s (s.keyUp k) := by
  intro p hp
  cases p
  case keys => simp at hp
  case v | mem => exact fun _ => rfl
  all_goals rfl

/-- Outside a wait, a press changes the keys alone. -/
theorem State.unchangedBut_keyDown_of_not_waiting {s : State} (hs : ∀ x, s.status ≠ .awaitingKey x) (k : Nibble) :
    UnchangedBut [.keys] s (s.keyDown k) := by
  intro p hp
  by_cases hl : p = .keyLatch
  · subst hl
    exact State.keyDown_keyLatch_of_not_waiting hs k
  · exact s.unchangedBut_keyDown k p (by simpa [hl] using hp)

/-- Settles O18, by the cases of a press: a held key, a released one in a wait, a full latch, no wait. -/
theorem keyOperationsSetKeysAndLatch : Obligations.KeyOperationsSetKeysAndLatch := by
  intro s k
  refine ⟨fun hk => congrArg _ (State.keyDown_of_held hk), fun hk => ⟨_, rfl, ?_⟩, ⟨_, rfl, ?_⟩⟩
  · obtain ⟨hpressed, hothers⟩ := State.key_of_keys_set (State.keyDown_keys_of_released hk)
    exact ⟨hpressed, hothers, fun _ hs hl => State.keyDown_keyLatch_of_waiting hs hl hk,
      fun _ hl => State.keyDown_keyLatch_of_full hl k, fun hs => State.keyDown_keyLatch_of_not_waiting hs k,
      s.unchangedBut_keyDown k⟩
  · obtain ⟨hreleased, hothers⟩ := State.key_of_keys_set (s.keyUp_keys k)
    exact ⟨hreleased, hothers, s.unchangedBut_keyUp k⟩

/-- Settles O12: a faulted core does not wait, so a press changes the keys alone; a reset asks nothing of the state before. -/
theorem faultedHasNoEnabledStep : Obligations.FaultedHasNoEnabledStep := by
  intro s c hs
  have hwait : ∀ x, s.status ≠ .awaitingKey x := fun x hx => nomatch hs.symm.trans hx
  refine ⟨by simp only [step, schedStep, hs], fun k => ⟨_, rfl, State.unchangedBut_keyDown_of_not_waiting hwait k⟩,
    fun k => ⟨_, rfl, s.unchangedBut_keyUp k⟩, fun cfg rom hrom => ?_⟩
  obtain ⟨-, hr⟩ | ⟨hlong, -⟩ := s.resetWith_cases cfg rom
  · exact ⟨_, hr, rfl⟩
  · exact absurd hrom hlong.not_ge

end Sys2Proof.Machine
end

section
/-! SUPPORT. The wait slot and the timer tick as steps of the scheduler (60_exceptions R204, R220, R224). -/

namespace Sys2Proof.Machine

theorem State.countSlot_of_not_faulted {s : State} (hf : ¬ s.Faulted) :
    s.countSlot = { s with cycleCtr := s.cycleCtr + 1 } :=
  (s.countSlot_cases.resolve_left fun h => hf h.1).2

/-- Settles O13: an empty latch blocks; with a full one the step is the slot that ends the wait, counted. -/
theorem waitSlotBlocksOrEndsTheWait : Obligations.WaitSlotBlocksOrEndsTheWait := by
  refine fun s x hs hslot => ⟨fun hl => step_of_waiting_empty hs hl hslot, fun k hl => ?_⟩
  obtain ⟨w, hw, hreg, hregs, hpc, hrun, hempty, hframe⟩ := execSlot_of_waiting_full hs hl
  have hstep := step_of_execSlot (State.not_faulted_of_waiting hs) hslot hw
  have hframe' := hframe.trans w.unchangedBut_countSlot (d := [.v, .pc, .status, .keyLatch, .cycleCtr])
    (by simp) (by simp)
  have hctr : w.cycleCtr = s.cycleCtr := hframe .cycleCtr (by simp)
  rw [State.countSlot_of_not_faulted (State.not_faulted_of_running hrun), hctr] at hstep hframe'
  exact ⟨_, hstep, hreg, hregs, hpc, hrun, hempty, rfl, hframe'⟩

theorem State.unchangedBut_tick (s : State) :
    UnchangedBut [.dt, .st, .report, .cycleCtr] s s.timerTick.resetCycleCtr := by
  intro p hp
  cases p
  case dt | st | report | cycleCtr => simp at hp
  case v | mem => exact fun _ => rfl
  all_goals rfl

/-- Settles O14: the step is the timer tick, and `countDown` takes one from each timer that is not 0. -/
theorem tickCountsDownAndReports : Obligations.TickCountsDownAndReports := fun s hf htick =>
  ⟨_, step_of_frame_end hf htick, countDown_toNat s.dt, countDown_toNat s.st, rfl, rfl, s.unchangedBut_tick⟩

end Sys2Proof.Machine
end

section
/-! SUPPORT. The number of the next draw (60_exceptions R233; log 8): `Cxkk` moves it on by one, and nothing else moves it. -/

namespace Sys2Proof.Machine

/-- What an instruction does to the number of the next draw. -/
theorem exec_drawCtr_cases {i : Instr} {s t : State} (h : exec i s = .next t) :
    ((∃ x kk, i = .rnd x kk) ∧ t.drawCtr = s.drawCtr + 1) ∨ ((∀ x kk, i ≠ .rnd x kk) ∧ t.drawCtr = s.drawCtr) := by
  cases i with
  | rnd x kk => exact .inl ⟨⟨x, kk, rfl⟩, Host.Outcome.next.inj h ▸ rfl⟩
  | call nnn =>
    obtain ⟨-, hp⟩ | ⟨_, hp⟩ := s.push_cases s.npc
    all_goals
      simp only [exec, execCall, hp] at h
      exact .inr ⟨nofun, Host.Outcome.next.inj h ▸ rfl⟩
  | ret =>
    obtain ⟨-, hp⟩ | ⟨_, _, _, hp⟩ := s.pop_cases
    all_goals
      simp only [exec, execRet, hp] at h
      exact .inr ⟨nofun, Host.Outcome.next.inj h ▸ rfl⟩
  | _ => exact .inr ⟨nofun, Host.Outcome.next.inj h ▸ rfl⟩

theorem State.countSlot_drawCtr (s : State) : s.countSlot.drawCtr = s.drawCtr :=
  s.unchangedBut_countSlot .drawCtr (by simp)

/-- A step that runs an instruction is that instruction, counted. -/
theorem exec_of_runsNext {s t : State} {i : Instr} (hi : s.RunsNext i) (h : step s = .next t) :
    ∃ u, exec i s = .next u ∧ t = u.countSlot := by
  obtain ⟨hs, hslot, hd⟩ := hi
  obtain ⟨-, ⟨-, u, hu, rfl⟩ | ⟨htick, -⟩⟩ := step_cases h
  · exact ⟨u, (execSlot_of_decoded hs hd).symm.trans hu, rfl⟩
  · exact absurd hslot htick.not_gt

/-- A step that runs `Cxkk` moves the number on by one. -/
theorem step_drawCtr_of_rnd {s t : State} {x : Nibble} {kk : Byte} (hi : s.RunsNext (.rnd x kk))
    (h : step s = .next t) : t.drawCtr = s.drawCtr + 1 := by
  obtain ⟨u, hu, rfl⟩ := exec_of_runsNext hi h
  obtain ⟨-, hctr⟩ | ⟨hne, -⟩ := exec_drawCtr_cases hu
  · exact u.countSlot_drawCtr.trans hctr
  · exact absurd rfl (hne x kk)

/-- A step leaves the number alone, or it runs `Cxkk`: an invalid word, a wait slot and a tick draw nothing. -/
theorem step_drawCtr_cases {s t : State} (h : step s = .next t) :
    t.drawCtr = s.drawCtr ∨ ∃ x kk, s.RunsNext (.rnd x kk) := by
  obtain ⟨-, ⟨hslot, u, hu, rfl⟩ | ⟨-, rfl⟩⟩ := step_cases h
  · rw [u.countSlot_drawCtr]
    obtain ⟨i, hs, hd, hexec⟩ | ⟨-, -, -, rfl⟩ | ⟨x, -, rfl⟩ := execSlot_cases hu
    · obtain ⟨⟨x, kk, rfl⟩, -⟩ | ⟨-, hsame⟩ := exec_drawCtr_cases hexec
      · exact .inr ⟨x, kk, hs, hslot, hd⟩
      · exact .inl hsame
    · exact .inl rfl
    · exact .inl (s.unchangedBut_waitSlot x .drawCtr (by simp))
  · exact .inl rfl

/-- A reset goes on with the same number (log 8). -/
theorem State.resetWith_drawCtr {s t : State} {cfg : Config} {rom : List Byte} (h : s.resetWith cfg rom = .next t) :
    t.drawCtr = s.drawCtr := by
  obtain ⟨-, hr⟩ | ⟨-, hr⟩ := s.resetWith_cases cfg rom
  · exact Host.Outcome.next.inj (h.symm.trans hr) ▸ rfl
  · cases hr.symm.trans h

/-- Settles O49, event by event. -/
theorem noDrawIsTakenTwice : Obligations.NoDrawIsTakenTwice := by
  intro e s t h
  cases e with
  | schedStep =>
    exact ⟨(step_drawCtr_cases h).imp_right fun ⟨x, kk, hrun⟩ => ⟨x, kk, rfl, hrun⟩,
      fun _ _ _ hrun => step_drawCtr_of_rnd hrun h⟩
  | keyDown k =>
    obtain rfl := Host.Outcome.next.inj h
    exact ⟨.inl (s.unchangedBut_keyDown k .drawCtr (by simp)), nofun⟩
  | keyUp k =>
    obtain rfl := Host.Outcome.next.inj h
    exact ⟨.inl (s.keyUp_drawCtr k), nofun⟩
  | reset cfg rom => exact ⟨.inl (State.resetWith_drawCtr h), nofun⟩

end Sys2Proof.Machine
end

section
/-! SUPPORT. The invariant of 10_state R42 over a step (60_exceptions R224), and of the reset state (70_reset_and_hazards R240). -/

namespace Sys2Proof.Machine

/-- Settles O47, by `State.Inv.of_step`: a slot keeps the invariant as `State.Inv.of_execSlot` says, a tick as
`State.Inv.tick` does. -/
theorem stepKeepsInv : Obligations.StepKeepsInv :=
  fun _ _ h hs => h.of_step hs

/-- Every value of the open font address leaves room for the font below 0x200 (00_scope R8). -/
theorem Config.machine_wellFormed : Config.machine.wellFormed = true := by
  have hbase : Config.machine.fontBase < 433 := Config.openFontBase.isLt
  rw [Config.wellFormed_iff]
  omega

theorem State.resetWith_machine_nil (s : State) :
    s.resetWith Config.machine [] = .next { State.reset with drawCtr := s.drawCtr } := by
  obtain ⟨-, hr⟩ | ⟨hlong, -⟩ := s.resetWith_cases Config.machine []
  · exact hr
  · exact absurd hlong (Nat.not_lt_zero _)

/-- Settles O20: `State.reset` is what its own reset answers, so it has the invariant as every reset state does. -/
theorem resetStateIsAnEmptyRomAndMeetsInv : Obligations.ResetStateIsAnEmptyRomAndMeetsInv :=
  ⟨State.resetWith_machine_nil, Config.machine_wellFormed, rfl,
    State.inv_of_resetWith Config.machine_wellFormed State.reset.resetWith_machine_nil⟩

end Sys2Proof.Machine
end

section
/-! SUPPORT. Encoder and decoder give each other back, and the words that are no instruction (30_encoding R72 to R76). -/

namespace Sys2Proof

/-! ### Round trips -/

/-- A word is its high byte and its low byte (20_memory R53). -/
theorem wordOfBytes_extract (op : Word) : wordOfBytes (op.extractLsb' 8 8) (op.extractLsb' 0 8) = op := by
  refine BitVec.eq_of_getLsbD_eq fun i hi => ?_
  simp only [wordOfBytes, BitVec.getLsbD_append, BitVec.getLsbD_extractLsb']
  interval_cases i <;> simp

theorem decodeBytes_bytesOfWord (op : Word) : decodeBytes (bytesOfWord op) = decode op :=
  congrArg decode (wordOfBytes_extract op)

/-- Settles O2: the bytes of an instruction are those of its word, which decodes to it. -/
theorem encodeThenDecodeGivesBack : Obligations.EncodeThenDecodeGivesBack :=
  fun i => ⟨decode_encode i, (decodeBytes_bytesOfWord (encode i)).trans (decode_encode i)⟩

/-- Settles O3, by `encode_of_decode`. -/
theorem decodedWordIsItsEncoding : Obligations.DecodedWordIsItsEncoding :=
  fun _ _ h => encode_of_decode h

/-! ### Invalid words, by their major opcode -/

/-- The major opcode of a class of invalid words (R76); a missing byte is no word's. -/
def DecodeError.major : DecodeError → Option Nibble
  | .zeroNnn => some 0x0
  | .fiveXyN => some 0x5
  | .eightXyN => some 0x8
  | .nineXyN => some 0x9
  | .eXkk => some 0xE
  | .fXkk => some 0xF
  | .tooFewBytes => none

theorem DecodeError.major_injective : Function.Injective DecodeError.major := by
  intro e e'
  cases e <;> cases e' <;> decide

/-- A word that decodes meets the conditions of R75: it matches the row of its instruction. -/
theorem wellFormedWord_of_decode_ok {op : Word} {i : Instr} (h : decode op = .ok i) : wellFormedWord op = true :=
  have ⟨hmem, hmatch⟩ := row_of_decode h
  wellFormedWord_of_match hmem hmatch

theorem wellFormedWord_of_decode_invalid {op : Word} {e : DecodeError} (h : decode op = .invalid e) :
    wellFormedWord op = false := by
  obtain ⟨i, hi, -⟩ | ⟨-, hw⟩ := decode_cases op
  · cases h.symm.trans hi
  · exact hw

/-- Outside six major opcodes every word is an instruction (R75). -/
theorem fieldA_of_not_wellFormedWord {op : Word} (h : wellFormedWord op = false) :
    fieldA op = 0x0#4 ∨ fieldA op = 0x5#4 ∨ fieldA op = 0x8#4 ∨ fieldA op = 0x9#4 ∨ fieldA op = 0xE#4 ∨
      fieldA op = 0xF#4 := by
  by_contra hne
  simp only [not_or] at hne
  simp [wellFormedWord_def, hne] at h

theorem eightXyN_of_decode8_invalid {op : Word} {e : DecodeError} (h : decode8 op = .invalid e) : e = .eightXyN := by
  simp only [decode8] at h
  split_ifs at h
  exact (Decoded.invalid.inj h).symm

theorem fXkk_of_decodeF_invalid {op : Word} {e : DecodeError} (h : decodeF op = .invalid e) : e = .fXkk := by
  simp only [decodeF] at h
  split_ifs at h
  exact (Decoded.invalid.inj h).symm

/-- The class that `decode` names is the one of the word's major opcode. -/
theorem major_of_decode_invalid {op : Word} {e : DecodeError} (h : decode op = .invalid e) :
    e.major = some (fieldA op) := by
  rcases fieldA_of_not_wellFormedWord (wellFormedWord_of_decode_invalid h) with ha | ha | ha | ha | ha | ha
  · obtain ⟨-, -, rfl⟩ : op ≠ 0x00E0#16 ∧ op ≠ 0x00EE#16 ∧ .zeroNnn = e := by simpa [decode, ha, ite_eq_iff] using h
    rw [ha]; rfl
  · obtain ⟨-, rfl⟩ : fieldN op ≠ 0x0#4 ∧ .fiveXyN = e := by simpa [decode, ha, ite_eq_iff] using h
    rw [ha]; rfl
  · obtain rfl : e = .eightXyN := eightXyN_of_decode8_invalid (by simpa [decode, ha] using h)
    rw [ha]; rfl
  · obtain ⟨-, rfl⟩ : fieldN op ≠ 0x0#4 ∧ .nineXyN = e := by simpa [decode, ha, ite_eq_iff] using h
    rw [ha]; rfl
  · obtain ⟨-, -, rfl⟩ : fieldKK op ≠ 0x9E#8 ∧ fieldKK op ≠ 0xA1#8 ∧ .eXkk = e := by
      simpa [decode, ha, ite_eq_iff] using h
    rw [ha]; rfl
  · obtain rfl : e = .fXkk := fXkk_of_decodeF_invalid (by simpa [decode, ha] using h)
    rw [ha]; rfl

/-- A word is invalid for a reason exactly when it lies in the reason's major opcode and breaks the conditions of R75. -/
theorem decode_eq_invalid_iff {op : Word} {e : DecodeError} :
    decode op = .invalid e ↔ e.major = some (fieldA op) ∧ wellFormedWord op = false := by
  refine ⟨fun h => ⟨major_of_decode_invalid h, wellFormedWord_of_decode_invalid h⟩, fun ⟨hmajor, hw⟩ => ?_⟩
  cases hd : decode op with
  | ok i => cases (wellFormedWord_of_decode_ok hd).symm.trans hw
  | invalid e' => rw [DecodeError.major_injective (hmajor.trans (major_of_decode_invalid hd).symm)]

/-- The same with the conditions that R75 makes in the major opcode `a`. -/
theorem decode_eq_invalid_iff_of_major {op : Word} {e : DecodeError} {a : Nibble} {p : Prop} (he : e.major = some a)
    (hp : fieldA op = a → (wellFormedWord op = false ↔ p)) : decode op = .invalid e ↔ fieldA op = a ∧ p := by
  rw [decode_eq_invalid_iff, he, Option.some_inj, eq_comm, and_congr_right hp]

/-- In major opcode 0 the address immediate is the whole word. -/
theorem eq_iff_fieldNNN_eq {op : Word} (ha : fieldA op = 0x0) (nnn : Addr) :
    op = encodeNNN 0x0 nnn ↔ fieldNNN op = nnn := by
  constructor
  · rintro rfl
    exact fieldNNN_encodeNNN 0x0 nnn
  · rintro rfl
    exact (encodeNNN_fields ha).symm

theorem not_mem_minorOps_iff : ∀ n : Nibble, n ∉ minorOps ↔ n ∈ [0x8, 0x9, 0xA, 0xB, 0xC, 0xD, 0xF] := by decide

/-- Settles O5: the conditions of R75 decide whether a word decodes, and no class of invalid words is a missing byte. -/
theorem decodeIsTotalAndValidByNibbles : Obligations.DecodeIsTotalAndValidByNibbles := by
  refine fun op => ⟨exists_decode_of_wellFormedWord, fun hw => ?_⟩
  cases hd : decode op with
  | ok i => cases (wellFormedWord_of_decode_ok hd).symm.trans hw
  | invalid e => exact ⟨e, rfl, fun he => nomatch he ▸ major_of_decode_invalid hd⟩

/-- Settles O6, by `decode_eq_invalid_iff_of_major` for each class: the conditions of R75 in its major opcode. -/
theorem invalidWordClasses : Obligations.InvalidWordClasses := by
  refine fun op => ⟨decode_eq_invalid_iff_of_major rfl fun ha => ?_, decode_eq_invalid_iff_of_major rfl fun ha => ?_,
    decode_eq_invalid_iff_of_major rfl fun ha => ?_, decode_eq_invalid_iff_of_major rfl fun ha => ?_,
    decode_eq_invalid_iff_of_major rfl fun ha => ?_, decode_eq_invalid_iff_of_major rfl fun ha => ?_⟩
  · have hcls : op = 0x00E0#16 ↔ fieldNNN op = 0x0E0 := eq_iff_fieldNNN_eq ha 0x0E0
    have hret : op = 0x00EE#16 ↔ fieldNNN op = 0x0EE := eq_iff_fieldNNN_eq ha 0x0EE
    simp [wellFormedWord_def, ha, hcls, hret]
  · simp [wellFormedWord_def, ha]
  · simp [wellFormedWord_def, ha]
  · rw [← not_mem_minorOps_iff, mem_minorOps_iff]
    simp [wellFormedWord_def, ha]
  · simp [wellFormedWord_def, ha]
  · simp [wellFormedWord_def, ha, lowByteOps]

/-- Settles O1: the decoder runs on each word. -/
theorem sampleWordsDecode : Obligations.SampleWordsDecode := by
  unfold Obligations.SampleWordsDecode
  decide

end Sys2Proof
end

section
/-! SUPPORT. What each instruction may change, said once (00_scope R13), and that none stops. -/

namespace Sys2Proof

/-- The parts of the state that an instruction may change. -/
@[simp] def Instr.changes : Instr → List Machine.Part
  | .cls => [.fb, .pc]
  | .ret => [.sp, .pc, .status]
  | .call _ => [.stack, .sp, .pc, .status]
  | .jp _ | .jpV0 _ | .seImm _ _ | .sneImm _ _ | .seReg _ _ | .sneReg _ _ | .skp _ | .sknp _ => [.pc]
  | .ldImm _ _ | .addImm _ _ | .ldReg _ _ | .orReg _ _ | .andReg _ _ | .xorReg _ _ | .addReg _ _ | .subReg _ _
  | .shrReg _ _ | .subnReg _ _ | .shlReg _ _ | .ldVxDt _ => [.v, .pc]
  | .rnd _ _ => [.v, .drawCtr, .pc]
  | .drw _ _ _ => [.fb, .v, .pc]
  | .ldI _ | .addI _ | .ldF _ => [.i, .pc]
  | .ldB _ => [.mem, .pc]
  | .stRegs _ => [.mem, .i, .pc]
  | .ldRegs _ => [.v, .i, .pc]
  | .ldVxK _ => [.status, .keyLatch]
  | .ldDtVx _ => [.dt, .pc]
  | .ldStVx _ => [.st, .pc]

/-! The instructions that may change a part which no more than two of them change. -/

section

variable {i : Instr}

theorem Instr.eq_cls_or_drw_of_fb_mem (h : .fb ∈ i.changes) : i = .cls ∨ ∃ x y n, i = .drw x y n := by
  cases i with
  | cls => exact .inl rfl
  | drw x y n => exact .inr ⟨x, y, n, rfl⟩
  | _ => simp at h

theorem Instr.eq_ldB_or_stRegs_of_mem_mem (h : .mem ∈ i.changes) : ∃ x, i = .ldB x ∨ i = .stRegs x := by
  cases i with
  | ldB x => exact ⟨x, .inl rfl⟩
  | stRegs x => exact ⟨x, .inr rfl⟩
  | _ => simp at h

theorem Instr.eq_call_of_stack_mem (h : .stack ∈ i.changes) : ∃ nnn, i = .call nnn := by
  cases i with
  | call nnn => exact ⟨nnn, rfl⟩
  | _ => simp at h

theorem Instr.eq_ret_or_call_of_sp_mem (h : .sp ∈ i.changes) : i = .ret ∨ ∃ nnn, i = .call nnn := by
  cases i with
  | ret => exact .inl rfl
  | call nnn => exact .inr ⟨nnn, rfl⟩
  | _ => simp at h

/-- The keypad state, the configuration, the count of slots and the report are changed by no instruction. -/
theorem Instr.changes_subset (i : Instr) :
    i.changes ⊆ [.v, .i, .pc, .stack, .sp, .dt, .st, .fb, .mem, .status, .keyLatch, .drawCtr] := by
  cases i <;> simp

end

end Sys2Proof

namespace Sys2Proof.Machine

/-- A call jumps after its push, or raises `StackOverflow` (40_flow R102). -/
theorem exec_call_cases (s : State) (nnn : Addr) :
    exec (.call nnn) s = .next (s.takeFault .stackOverflow) ∨
    ∃ u, s.push s.npc = some u ∧ exec (.call nnn) s = .next (u.setPc (absolute nnn)) := by
  obtain ⟨hfull, -⟩ | ⟨hlt, -⟩ := s.push_cases s.npc
  · exact .inl (exec_call_full hfull nnn)
  · obtain ⟨u, hp, hu, -⟩ := exec_call_push (j := ⟨s.sp.val, hlt⟩) rfl nnn
    exact .inr ⟨u, hp, hu⟩

/-- A return jumps after its pop, or raises `StackUnderflow` (40_flow R100). -/
theorem exec_ret_cases (s : State) :
    exec .ret s = .next (s.takeFault .stackUnderflow) ∨
    ∃ w u, s.pop = some (w, u) ∧ exec .ret s = .next (u.setPc w) := by
  obtain ⟨hempty, -⟩ | ⟨hpos, hlt, -⟩ := s.pop_cases
  · exact .inl (exec_ret_empty hempty)
  · obtain ⟨u, hp, hu, -⟩ := exec_ret_pop (s := s) (j := ⟨s.sp.val - 1, hlt⟩) (Nat.sub_add_cancel hpos).symm
    exact .inr ⟨_, u, hp, hu⟩

/-- Settles O50: each arm gives its next state at once, but for the two that ask the stack, and both answers of the stack
lead to one. -/
theorem everyInstructionAnswersNext : Obligations.EveryInstructionAnswersNext := by
  intro i s
  cases i with
  | call nnn => exact (exec_call_cases s nnn).elim (⟨_, ·⟩) fun ⟨_, _, hu⟩ => ⟨_, hu⟩
  | ret => exact (exec_ret_cases s).elim (⟨_, ·⟩) fun ⟨_, _, _, hu⟩ => ⟨_, hu⟩
  | _ => exact ⟨_, rfl⟩

theorem UnchangedBut.mono {c d : List Part} {s t : State} (h : UnchangedBut c s t) (hc : c ⊆ d) : UnchangedBut d s t :=
  fun p hp => h p fun hm => hp (hc hm)

theorem State.unchangedBut_takeFault (s : State) (c : FaultCause) : UnchangedBut [.status] s (s.takeFault c) := by
  intro p hp
  cases p
  case status => simp at hp
  case v | mem => exact fun _ => rfl
  all_goals rfl

/-- The frame of every instruction: each changes at most its `Instr.changes`. -/
theorem exec_unchangedBut {i : Instr} {s t : State} (h : exec i s = .next t) : UnchangedBut i.changes s t := by
  cases i with
  | call nnn =>
    obtain hx | ⟨u, hp, hx⟩ := exec_call_cases s nnn
    all_goals obtain rfl := Host.Outcome.next.inj (hx.symm.trans h)
    · exact (s.unchangedBut_takeFault _).mono (by simp)
    · exact (State.unchangedBut_push hp).trans (u.unchangedBut_setPc _) (by simp) (by simp)
  | ret =>
    obtain hx | ⟨w, u, hp, hx⟩ := exec_ret_cases s
    all_goals obtain rfl := Host.Outcome.next.inj (hx.symm.trans h)
    · exact (s.unchangedBut_takeFault _).mono (by simp)
    · exact (State.unchangedBut_pop hp).trans (u.unchangedBut_setPc _) (by simp) (by simp)
  | cls => exact Host.Outcome.next.inj h ▸ (s.unchangedBut_setFb _).advance (by simp) (by simp)
  | jp | jpV0 | seImm | sneImm | seReg | sneReg | skp | sknp => exact Host.Outcome.next.inj h ▸ s.unchangedBut_setPc _
  | ldImm | addImm | ldReg | orReg | andReg | xorReg | ldVxDt =>
    exact Host.Outcome.next.inj h ▸ (s.unchangedBut_setV _ _).advance (by simp) (by simp)
  | addReg | subReg | shrReg | subnReg | shlReg =>
    exact Host.Outcome.next.inj h ▸ (s.unchangedBut_setFlagged _ _ _).advance (by simp) (by simp)
  | rnd x kk =>
    have hframe := (s.unchangedBut_setV x (s.drawByte &&& kk)).trans (State.unchangedBut_consumeDraw _)
      (d := [.v, .drawCtr]) (by simp) (by simp)
    exact Host.Outcome.next.inj h ▸ hframe.advance (by simp) (by simp)
  | drw x y n => exact (exec_drw_frame h).2.2
  | ldI | addI | ldF => exact Host.Outcome.next.inj h ▸ (s.unchangedBut_setI _).advance (by simp) (by simp)
  | ldB x => exact Host.Outcome.next.inj h ▸ (s.unchangedBut_storeBlock _ _).advance (by simp) (by simp)
  | stRegs x =>
    have hframe := (s.unchangedBut_storeBlock s.i.toNat (s.regsUpTo x)).trans (State.unchangedBut_bumpIndex _ x)
      (d := [.mem, .i]) (by simp) (by simp)
    exact Host.Outcome.next.inj h ▸ hframe.advance (by simp) (by simp)
  | ldRegs x =>
    have hframe := (s.unchangedBut_bumpIndex x).trans (State.unchangedBut_setRegs _ (s.regsLoaded x))
      (d := [.v, .i]) (by simp) (by simp)
    exact Host.Outcome.next.inj h ▸ hframe.advance (by simp) (by simp)
  | ldVxK x => exact Host.Outcome.next.inj h ▸ s.unchangedBut_startWait x
  | ldDtVx x => exact Host.Outcome.next.inj h ▸ (s.unchangedBut_setDt _).advance (by simp) (by simp)
  | ldStVx x => exact Host.Outcome.next.inj h ▸ (s.unchangedBut_setSt _).advance (by simp) (by simp)

end Sys2Proof.Machine
end

section
/-! SUPPORT. What a step changes, by the instruction that it runs (60_exceptions R201, R224): every rule of the form "only these
instructions change this part" is `step_changes` for the part. -/

namespace Sys2Proof.Machine

/-- A slot changes what its instruction changes; without one it raises `InvalidOpcode` or belongs to a wait. -/
theorem execSlot_unchangedBut {s t : State} (h : execSlot s = .next t) :
    (∃ i, s.status = .running ∧ decode s.fetchWord = .ok i ∧ UnchangedBut i.changes s t) ∨
    UnchangedBut [.v, .pc, .status, .keyLatch] s t := by
  obtain ⟨i, hs, hd, hexec⟩ | ⟨-, -, -, rfl⟩ | ⟨x, -, rfl⟩ := execSlot_cases h
  · exact .inl ⟨i, hs, hd, exec_unchangedBut hexec⟩
  · exact .inr ((s.unchangedBut_takeFault _).mono (by simp))
  · exact .inr (s.unchangedBut_waitSlot x)

/-- A part that neither a wait slot, a tick nor the count of slots changes is the same after a step, unless the instruction that
the step runs changes it. -/
theorem step_changes {s t : State} (h : step s = .next t) {p : Part}
    (hp : p ∉ [.v, .pc, .dt, .st, .status, .keyLatch, .cycleCtr, .report]) :
    p.Same s t ∨ ∃ i, s.RunsNext i ∧ p ∈ i.changes := by
  simp only [List.mem_cons, List.not_mem_nil, or_false, not_or] at hp
  obtain ⟨-, ⟨hslot, u, hu, rfl⟩ | ⟨-, rfl⟩⟩ := step_cases h
  · have hcount : p.Same u u.countSlot := u.unchangedBut_countSlot p (by simp [hp])
    obtain ⟨i, hs, hd, hframe⟩ | hframe := execSlot_unchangedBut hu
    · by_cases hi : p ∈ i.changes
      · exact .inr ⟨i, ⟨hs, hslot, hd⟩, hi⟩
      · exact .inl ((hframe p hi).trans hcount)
    · exact .inl ((hframe p (by simp [hp])).trans hcount)
  · exact .inl (s.unchangedBut_tick p (by simp [hp]))

/-- Settles O52: no instruction changes the keypad state or the configuration. -/
theorem stepNeverWritesKeysOrConfig : Obligations.StepNeverWritesKeysOrConfig := by
  refine fun s t h => ⟨(step_changes h (p := .keys) (by simp)).resolve_right fun ⟨i, _, hi⟩ => ?_,
    (step_changes h (p := .cfg) (by simp)).resolve_right fun ⟨i, _, hi⟩ => ?_⟩
  · simpa using i.changes_subset hi
  · simpa using i.changes_subset hi

/-- Settles O54, by `step_changes`. -/
theorem onlyClsAndDrwChangeTheFramebuffer : Obligations.OnlyClsAndDrwChangeTheFramebuffer := by
  intro s t h hne
  obtain ⟨i, hrun, hi⟩ := (step_changes h (p := .fb) (by simp)).resolve_left hne
  obtain rfl | ⟨x, y, n, rfl⟩ := Instr.eq_cls_or_drw_of_fb_mem hi
  · exact .inl hrun
  · exact .inr ⟨x, y, n, hrun⟩

/-- Settles O55, by `step_changes`. -/
theorem onlyStoresChangeMemory : Obligations.OnlyStoresChangeMemory := by
  intro s t a h hne
  obtain ⟨i, hrun, hi⟩ := (step_changes h (p := .mem) (by simp)).resolve_left fun hsame => hne (hsame a)
  obtain ⟨x, rfl | rfl⟩ := Instr.eq_ldB_or_stRegs_of_mem_mem hi
  · exact ⟨x, .inl hrun⟩
  · exact ⟨x, .inr hrun⟩

/-- Settles O56, by `step_changes` for the entries and for `SP`. -/
theorem onlyCallAndRetTouchTheStack : Obligations.OnlyCallAndRetTouchTheStack := by
  refine fun s t h => ⟨fun hne => ?_, fun hne => ?_⟩
  · obtain ⟨i, hrun, hi⟩ := (step_changes h (p := .stack) (by simp)).resolve_left hne
    obtain ⟨nnn, rfl⟩ := Instr.eq_call_of_stack_mem hi
    exact ⟨nnn, hrun⟩
  · obtain ⟨i, hrun, hi⟩ := (step_changes h (p := .sp) (by simp)).resolve_left hne
    obtain rfl | ⟨nnn, rfl⟩ := Instr.eq_ret_or_call_of_sp_mem hi
    · exact .inl hrun
    · exact .inr ⟨nnn, hrun⟩

/-- Settles O57, by `step_slot_changes_timer`. -/
theorem onlyTicksAndTimerLoadsChangeTimers : Obligations.OnlyTicksAndTimerLoadsChangeTimers :=
  fun _ _ h hslot => step_slot_changes_timer h hslot

/-! ### What a step answers, and where `STATUS` goes -/

theorem step_of_faulted {s : State} (hf : s.Faulted) : ∃ c, step s = .fault (.halted c) := by
  obtain ⟨c, hs⟩ := hf
  exact ⟨c, by simp only [step, schedStep, hs]⟩

/-- A core that is not faulted answers a next state, whatever the slot. -/
theorem exists_step_of_not_faulted {s : State} (hf : ¬ s.Faulted) : ∃ t, step s = .next t := by
  by_cases hslot : s.cycleCtr < s.cfg.cyclesPerFrame
  swap
  · exact ⟨_, step_of_frame_end hf (Nat.not_lt.1 hslot)⟩
  suffices hu : ∃ u, execSlot s = .next u from hu.imp' State.countSlot fun _ => step_of_execSlot hf hslot
  cases hs : s.status with
  | running =>
    cases hd : decode s.fetchWord with
    | ok i => exact (everyInstructionAnswersNext i s).imp fun _ => (execSlot_of_decoded hs hd).trans
    | invalid e => exact ⟨_, execSlot_of_invalid hs hd⟩
  | awaitingKey x => exact ⟨_, execSlot_of_waiting hs⟩
  | faulted c => exact absurd ⟨c, hs⟩ hf

/-- Settles O51: in `FAULTED` a step answers the fault, elsewhere a next state. -/
theorem stepStopsExactlyWhenFaulted : Obligations.StepStopsExactlyWhenFaulted := by
  intro s
  by_cases hf : s.Faulted
  · obtain ⟨c, hc⟩ := step_of_faulted hf
    exact ⟨⟨fun _ => ⟨_, hc⟩, fun _ => hf⟩, fun _ hr => (nomatch hc.symm.trans hr), (absurd hf ·)⟩
  · obtain ⟨t, ht⟩ := exists_step_of_not_faulted hf
    exact ⟨⟨(absurd · hf), fun ⟨_, hr⟩ => nomatch ht.symm.trans hr⟩, fun _ hr => (nomatch ht.symm.trans hr),
      fun _ => ⟨t, ht⟩⟩

/-- Settles O8: the slot is `exec` of the decoded instruction, and it is counted unless it faulted. -/
theorem stepRunsDecodedInstruction : Obligations.StepRunsDecodedInstruction := by
  rintro s i ⟨hs, hslot, hd⟩
  obtain ⟨t, ht⟩ := everyInstructionAnswersNext i s
  have hstep := step_of_execSlot (State.not_faulted_of_running hs) hslot ((execSlot_of_decoded hs hd).trans ht)
  refine ⟨t, ht, fun hf => ?_, fun hf => ?_⟩
  · rwa [State.countSlot_of_not_faulted hf] at hstep
  · obtain ⟨-, hcount⟩ | ⟨hf', -⟩ := t.countSlot_cases
    · rwa [hcount] at hstep
    · exact absurd hf hf'

/-- A step with an execute slot takes `STATUS` where the slot takes it, and a tick leaves it. -/
theorem step_status_cases {s t : State} (h : step s = .next t) :
    t.status = s.status ∨
    s.cycleCtr < s.cfg.cyclesPerFrame ∧ ∃ u, execSlot s = .next u ∧ t.status = u.status := by
  obtain ⟨-, ⟨hslot, u, hu, rfl⟩ | ⟨-, rfl⟩⟩ := step_cases h
  · exact .inr ⟨hslot, u, hu, u.unchangedBut_countSlot .status (by simp)⟩
  · exact .inl rfl

theorem step_status_of_running {s t : State} (h : step s = .next t) (hs : s.status = .running) :
    t.status = .running ∨ (∃ x, s.RunsNext (.ldVxK x) ∧ t.status = .awaitingKey x) ∨ ∃ c, t.status = .faulted c := by
  obtain hsame | ⟨hslot, u, hu, ht⟩ := step_status_cases h
  · exact .inl (hsame.trans hs)
  obtain ⟨i, -, hd, hexec⟩ | ⟨-, -, -, rfl⟩ | ⟨x, hx, -⟩ := execSlot_cases hu
  · obtain ⟨-, -, -, rfl⟩ | ⟨-, -, rfl⟩ | ⟨x, rfl, rfl⟩ | hsame := exec_status_cases hexec
    · exact .inr (.inr ⟨_, ht⟩)
    · exact .inr (.inr ⟨_, ht⟩)
    · exact .inr (.inl ⟨x, ⟨hs, hslot, hd⟩, ht⟩)
    · exact .inl (ht.trans (hsame.trans hs))
  · exact .inr (.inr ⟨_, ht⟩)
  · cases hs.symm.trans hx

theorem step_status_of_waiting {s t : State} {x : Nibble} (h : step s = .next t) (hs : s.status = .awaitingKey x) :
    t.status = .awaitingKey x ∨ (t.status = .running ∧ ∃ k, s.keyLatch = some k) := by
  obtain hsame | ⟨-, u, hu, ht⟩ := step_status_cases h
  · exact .inl (hsame.trans hs)
  obtain rfl := Host.Outcome.next.inj ((execSlot_of_waiting hs).symm.trans hu)
  obtain ⟨-, hw⟩ | ⟨k, hk, hw⟩ := s.waitSlot_cases x
  · exact .inl (ht.trans ((congrArg State.status hw).trans hs))
  · exact .inr ⟨ht.trans (congrArg State.status hw), k, hk⟩

/-- Settles O53: a step by the status it starts from; the key operations leave `STATUS` unchanged. -/
theorem statusTransitions : Obligations.StatusTransitions := by
  refine ⟨fun s t => step_status_of_running, fun s t x => step_status_of_waiting, fun s t k h => ?_⟩
  obtain h | h := h
  · exact Host.Outcome.next.inj h ▸ s.unchangedBut_keyDown k .status (by simp)
  · exact Host.Outcome.next.inj h ▸ s.keyUp_status k

end Sys2Proof.Machine
end

section
/-! SUPPORT. Which registers an instruction writes (10_state R21, R23), and that none reads `ST` (R31). -/

namespace Sys2Proof.Machine

/-! ### Registers -/

/-- An instruction leaves every register that it is not listed for. -/
theorem exec_getV_of_not_mayWrite {i : Instr} {s t : State} {r : Nibble} (h : exec i s = .next t)
    (hr : mayWrite r i = false) : t.getV r = s.getV r := by
  cases i with
  | ldImm | addImm | ldReg | orReg | andReg | xorReg | ldVxDt | rnd =>
    obtain rfl := Host.Outcome.next.inj h
    exact s.regsUnchangedBut_setV _ _ r (by simpa [mayWrite] using hr)
  | addReg | subReg | shrReg | subnReg | shlReg =>
    obtain rfl := Host.Outcome.next.inj h
    exact s.regsUnchangedBut_setFlagged _ _ _ r (by simpa [mayWrite] using hr)
  | drw x y n => exact (exec_drw_frame h).1 r (by simpa [mayWrite] using hr)
  | ldRegs x =>
    obtain rfl := Host.Outcome.next.inj h
    exact (s.getV_setRegs_regsLoaded (s.bumpIndex x) x r).trans (if_neg (by simpa [mayWrite] using hr))
  | _ => exact exec_unchangedBut h .v (by simp) r

/-- After a result and its flag, `VF` holds the flag. -/
theorem State.setFlagged_flagByte_getV_15 (s : State) (x : Nibble) (b : Byte) (c : Bool) :
    (s.setFlagged x b (flagByte c)).getV 15 = 0 ∨ (s.setFlagged x b (flagByte c)).getV 15 = 1 := by
  rw [State.getV_setFlagged, if_pos rfl]
  exact flagByte_eq_zero_or_one c

/-- Settles O58: the frame of the registers; the six flag instructions write a `flagByte` to `VF` last. -/
theorem instructionsWriteOnlyTheirRegisters : Obligations.InstructionsWriteOnlyTheirRegisters := by
  refine fun i s t h => ⟨fun r => exec_getV_of_not_mayWrite h, ?_⟩
  rintro (⟨x, y, rfl | rfl | rfl | rfl | rfl⟩ | ⟨x, y, n, rfl⟩)
  case inr => exact (exec_drw_spec h).2.2.1
  all_goals exact Host.Outcome.next.inj h ▸ s.setFlagged_flagByte_getV_15 x _ _

/-! ### `ST` -/

theorem State.push_setSt (s : State) (b : Byte) (w : Word) : (s.setSt b).push w = (s.push w).map (·.setSt b) := by
  obtain ⟨hfull, hn⟩ | ⟨hlt, hs⟩ := s.push_cases w
  · rw [hn]
    exact dif_neg hfull.not_lt
  · rw [hs]
    exact dif_pos hlt

theorem State.pop_setSt (s : State) (b : Byte) : (s.setSt b).pop = s.pop.map fun p => (p.1, p.2.setSt b) := by
  obtain ⟨hempty, hn⟩ | ⟨hpos, _, _, hs⟩ := s.pop_cases
  · rw [hn]
    exact dif_neg hempty.not_gt
  · rw [hs]
    exact dif_pos hpos

/-- Every instruction but `Fx18` commutes with a write of `ST`. -/
theorem exec_setSt {i : Instr} {s t : State} (b : Byte) (hi : ∀ x, i ≠ .ldStVx x) (h : exec i s = .next t) :
    exec i (s.setSt b) = .next (t.setSt b) := by
  cases i with
  | ret =>
    simp only [exec, execRet, State.pop_setSt] at h ⊢
    cases hp : s.pop with
    | none => rw [hp] at h; cases h; rfl
    | some p => rw [hp] at h; cases h; rfl
  | call nnn =>
    simp only [exec, execCall, State.setSt_npc, State.push_setSt] at h ⊢
    cases hp : s.push s.npc with
    | none => rw [hp] at h; cases h; rfl
    | some u => rw [hp] at h; cases h; rfl
  | ldStVx x => exact absurd rfl (hi x)
  | _ => exact Host.Outcome.next.inj h ▸ rfl

/-- `Fx18` overwrites whatever `ST` held. -/
theorem exec_ldStVx_setSt (x : Nibble) (s : State) (b : Byte) : exec (.ldStVx x) (s.setSt b) = exec (.ldStVx x) s := rfl

/-- Settles O59: `Fx18` ends in the very same state, every other instruction in the same state with the other `ST`. -/
theorem soundTimerIsNeverRead : Obligations.SoundTimerIsNeverRead := by
  intro i s t b h
  by_cases hi : ∃ x, i = .ldStVx x
  · obtain ⟨x, rfl⟩ := hi
    exact ⟨t, (exec_ldStVx_setSt x s b).trans h, rfl⟩
  · exact ⟨t.setSt b, exec_setSt b (not_exists.1 hi) h, rfl⟩

end Sys2Proof.Machine
end

section
/-! SUPPORT. A store over the next instruction (20_memory R62). -/

namespace Sys2Proof.Machine

/-- The word at `PC` is read at the addresses mod 4096 (20_memory R50, R54). -/
theorem State.fetchWord_of_pc_mod {t : State} {a : Nat} (h : t.pc.toNat = a % 4096) :
    t.fetchWord = t.memRead a ++ t.memRead (a + 1) := by
  rw [t.memRead_congr (show a % 4096 = t.pc.toNat % 4096 by omega),
    t.memRead_congr (show (a + 1) % 4096 = (t.pc.toNat + 1) % 4096 by omega)]
  rfl

/-- Settles O40, from what the store does (O37): `npc` is the address of the stored byte `k`. -/
theorem storedCodeIsFetchedNext : Obligations.StoredCodeIsFetchedNext := by
  intro s t x k hm hk hpc hstore
  obtain ⟨-, t', ht, hstored, -, -, -, hadvanced, -⟩ := registersAreStored s x hm
  obtain rfl := Host.Outcome.next.inj (ht.symm.trans hstore)
  have hk1 : (k + 1).toNat = k.toNat + 1 := by
    have := x.isLt
    rw [BitVec.toNat_add, show (1 : Nibble).toNat = 1 from rfl]
    omega
  have hlow := hstored (k + 1) (hk1 ▸ hk)
  rw [hk1, ← Nat.add_assoc] at hlow
  rw [State.fetchWord_of_pc_mod (hadvanced.trans hpc), hstored k (Nat.le_of_succ_le hk), hlow]

end Sys2Proof.Machine
end

section
/-! SUPPORT. Frames of the scheduler (60_exceptions R224, R225): runs of steps, the count of slots in a frame, and the frames of
a core that waits for a key. -/

namespace Sys2Proof.Machine

/-! ### Runs of steps -/

/-- A run that gets through its first `m` steps goes on from there. -/
theorem stepMany_add {m : Nat} {s t : State} (h : stepMany m s = .next t) (n : Nat) :
    stepMany (m + n) s = stepMany n t := by
  induction m generalizing s with
  | zero => rw [Nat.zero_add, Host.Outcome.next.inj h]
  | succ m ih =>
    rw [Nat.succ_add]
    simp only [stepMany] at h ⊢
    cases hs : step s with
    | next u => rw [hs] at h; exact ih h
    | fault r => rw [hs] at h; cases h
    | refused r => rw [hs] at h; cases h

theorem stepMany_one (s : State) : stepMany 1 s = step s := by
  simp only [stepMany]
  cases step s <;> rfl

/-- The last step of a run. -/
theorem stepMany_succ_of_next {k : Nat} {s t : State} (h : stepMany k s = .next t) : stepMany (k + 1) s = step t :=
  (stepMany_add h 1).trans (stepMany_one t)

/-- A run of `k + 1` steps is a run of `k` steps and one more. -/
theorem stepMany_succ_cases {k : Nat} {s t : State} (h : stepMany (k + 1) s = .next t) :
    ∃ u, stepMany k s = .next u ∧ step u = .next t := by
  induction k generalizing s with
  | zero => exact ⟨s, rfl, stepMany_one s ▸ h⟩
  | succ k ih =>
    rw [stepMany] at h ⊢
    cases hs : step s with
    | next v => rw [hs] at h; exact ih h
    | fault r => rw [hs] at h; cases h
    | refused r => rw [hs] at h; cases h

/-! ### A frame -/

/-- A slot leaves the count of slots to the scheduler (60_exceptions R224). -/
theorem execSlot_cycleCtr {s t : State} (h : execSlot s = .next t) : t.cycleCtr = s.cycleCtr := by
  obtain ⟨i, -, -, hframe⟩ | hframe := execSlot_unchangedBut h
  · exact hframe .cycleCtr fun hi => by simpa using i.changes_subset hi
  · exact hframe .cycleCtr (by simp)

/-- A step with a slot left in the frame counts it, unless it faulted. -/
theorem step_cycleCtr_of_slot {s t : State} (h : step s = .next t) (hslot : s.cycleCtr < s.cfg.cyclesPerFrame)
    (hf : ¬ t.Faulted) : t.cycleCtr = s.cycleCtr + 1 := by
  obtain ⟨-, ⟨-, u, hu, rfl⟩ | ⟨htick, -⟩⟩ := step_cases h
  · rw [← execSlot_cycleCtr hu]
    obtain ⟨hfault, hcount⟩ | ⟨-, hcount⟩ := u.countSlot_cases
    · rw [hcount] at hf
      exact absurd hfault hf
    · rw [hcount]
  · exact absurd hslot htick.not_gt

theorem stepMany_cfg {k : Nat} {s t : State} (h : stepMany k s = .next t) : t.cfg = s.cfg := by
  induction k generalizing t with
  | zero => exact Host.Outcome.next.inj h ▸ rfl
  | succ k ih =>
    obtain ⟨u, hu, hstep⟩ := stepMany_succ_cases h
    exact (stepNeverWritesKeysOrConfig u t hstep).2.trans (ih hu)

/-- From the start of a frame the count of slots is the count of steps, up to the length of the frame. -/
theorem stepMany_cycleCtr {k : Nat} {s t : State} (h0 : s.cycleCtr = 0) (hk : k ≤ s.cfg.cyclesPerFrame)
    (h : stepMany k s = .next t) (hf : ¬ t.Faulted) : t.cycleCtr = k := by
  induction k generalizing t with
  | zero => exact Host.Outcome.next.inj h ▸ h0
  | succ k ih =>
    obtain ⟨u, hu, hstep⟩ := stepMany_succ_cases h
    have hctr : u.cycleCtr = k := ih (Nat.le_of_succ_le hk) hu (step_cases hstep).1
    rw [step_cycleCtr_of_slot hstep (by rw [hctr, stepMany_cfg hu]; exact hk) hf, hctr]

/-- Settles O15: the count of slots says where in the frame the run is, and at its end the step is the tick. -/
theorem frameIsSlotsThenOneTick : Obligations.FrameIsSlotsThenOneTick := by
  refine fun s h0 => ⟨fun k t hk => stepMany_cycleCtr h0 hk, fun t h hf => ?_⟩
  have hend : t.cfg.cyclesPerFrame ≤ t.cycleCtr := by rw [stepMany_cycleCtr h0 le_rfl h hf, stepMany_cfg h]
  exact (stepMany_succ_of_next h).trans (step_of_frame_end hf hend)

/-! ### The frames of a waiting core -/

/-- While the latch is empty and the frame lasts, only the count of slots goes on (60_exceptions R204). -/
theorem stepMany_of_waiting_empty {s : State} {x : Nibble} (hs : s.status = .awaitingKey x) (hl : s.keyLatch = none)
    {k : Nat} (hk : s.cycleCtr + k ≤ s.cfg.cyclesPerFrame) :
    stepMany k s = .next { s with cycleCtr := s.cycleCtr + k } := by
  induction k with
  | zero => rfl
  | succ k ih =>
    rw [stepMany_succ_of_next (ih (Nat.le_of_succ_le hk))]
    exact step_of_waiting_empty (s := { s with cycleCtr := s.cycleCtr + k }) hs hl hk

/-- A frame of a waiting core is, in the end, its tick. -/
theorem stepMany_frame_of_waiting_empty {s : State} {x : Nibble} (hs : s.status = .awaitingKey x)
    (hl : s.keyLatch = none) (h0 : s.cycleCtr = 0) :
    stepMany (s.cfg.cyclesPerFrame + 1) s = .next s.timerTick.resetCycleCtr := by
  have hslots := stepMany_of_waiting_empty hs hl (k := s.cfg.cyclesPerFrame) (by omega)
  rw [stepMany_succ_of_next hslots]
  exact step_of_frame_end (s := { s with cycleCtr := s.cycleCtr + s.cfg.cyclesPerFrame })
    (State.not_faulted_of_waiting hs) (Nat.le_add_left ..)

/-- The tick sets the count of slots to 0, its value at the start of a frame. -/
theorem State.unchangedBut_tick_of_frame_start {s : State} (h0 : s.cycleCtr = 0) :
    UnchangedBut [.dt, .st, .report] s s.timerTick.resetCycleCtr := by
  intro p hp
  by_cases hctr : p = .cycleCtr
  · subst hctr
    exact h0.symm
  · exact s.unchangedBut_tick p (by simpa [hctr] using hp)

/-- Settles O16, by induction over the frames. -/
theorem blockedCoreKeepsTicking : Obligations.BlockedCoreKeepsTicking := by
  intro s x n hs hl h0
  induction n generalizing s with
  | zero => exact ⟨s, by rw [Nat.zero_mul]; rfl, rfl, rfl, .refl _ s⟩
  | succ n ih =>
    have hframe := stepMany_frame_of_waiting_empty hs hl h0
    obtain ⟨t, ht, hdt, hst, hrest⟩ := ih s.timerTick.resetCycleCtr hs hl rfl
    refine ⟨t, ?_, ?_, ?_, (State.unchangedBut_tick_of_frame_start h0).trans hrest (by simp) (by simp)⟩
    · rw [Nat.succ_mul, Nat.add_comm, stepMany_add hframe]
      exact ht
    · rw [hdt, State.resetCycleCtr_dt, State.timerTick_dt, countDown_toNat]
      omega
    · rw [hst, State.resetCycleCtr_st, State.timerTick_st, countDown_toNat]
      omega

end Sys2Proof.Machine
end
